-- ==== Sys2Proof/Word.lean ====
section
/-! DEFINITION. The word types of CODEC (spec/00_scope.md section 6, spec/10_state.md). -/

namespace Sys2Proof

/-- One byte of the frame buffer (R13). -/
abbrev Byte := BitVec 8

/-- A 16-bit value: header, control word, segment, trailer, CRC register (R14, R18). -/
abbrev Half := BitVec 16

/-- A 32-bit payload value (R14). -/
abbrev Word := BitVec 32

/-- A 64-bit frame value, wire byte `i` in bits `8i+7 : 8i` (R42). -/
abbrev Raw := BitVec 64

end Sys2Proof
end

