-- ==== Sys2Proof/Config.lean ====
section
/-! DEFINITION. The parameters of a CODEC instance (spec/00_scope.md R9) and the one free value the spec
leaves open (spec/93_implementation_defined.md U13). The values of this hardware stand in Machine/Params.lean. -/

namespace Sys2Proof

/-- `CRC_COVER`: how many leading bytes of the frame the CRC covers, 6 or 5 (R9). -/
inductive CrcCover where
  | six
  | five
deriving DecidableEq, Repr

/-- The number of covered bytes. -/
def CrcCover.bytes : CrcCover → Nat
  | .six => 6
  | .five => 5

/-- `DECODE_COMMIT`: what a received buffer that fails its CRC check does to the frame buffer (R9). -/
inductive DecodeCommit where
  | overwrite
  | scratch
deriving DecidableEq, Repr

/-- The instance parameters of R9, constant for the life of an instance. -/
structure Config where
  /-- `CRC_COVER`. -/
  crcCover : CrcCover
  /-- `DECODE_COMMIT`. -/
  decodeCommit : DecodeCommit
  /-- `REG_READBACK_FIX`: false is 0, true is 1. -/
  regReadbackFix : Bool
  /-- `OPND_W`: width of the operands `rank`, `register`, `data`. -/
  opndW : Nat
  /-- `RAW_LEN_W`: width of the length operand of `LDRAW`. -/
  rawLenW : Nat
deriving DecidableEq, Repr

/-- The widths R9 admits: `OPND_W` at least 17, `RAW_LEN_W` at least 4. -/
def Config.wf (c : Config) : Bool := decide (17 ≤ c.opndW) && decide (4 ≤ c.rawLenW)

/-- FREE VALUE. What `CREG` holds once a CRC computation is over: any value (U13; R61 says only that the register need
not change). The argument numbers the draws, so two draws are unrelated. Log entry 5. -/
opaque Config.freeCreg : Nat → Half

end Sys2Proof
end

