-- ==== Sys2Proof/Machine/Params.lean ====
section
/-! DEFINITION. The constants of spec/00_scope.md R7 and R8 and the parameter values of this hardware (R9). They stand
here and not in Config.lean so that a later repair may mend a value. -/

namespace Sys2Proof.Machine

/-- `HEADER_MAGIC` (R7). -/
def headerMagic : Half := 0xBEEF#16

/-- `RANK_MASK` (R7), at the width of the register field: the mask of the defective read-back of R78. -/
def rankMask : BitVec 12 := 0x003#12

/-- `REG_MASK` (R7). -/
def regMask : BitVec 12 := 0xFFF#12

/-- `CRC_POLY` (R8; UNVERIFIED, log entry 4). -/
def crcPoly : Half := 0x1021#16

/-- `CRC_INIT` (R8; UNVERIFIED, log entry 4). -/
def crcInitValue : Half := 0xFFFF#16

/-- `CRC_XOROUT` (R8; UNVERIFIED, log entry 4). -/
def crcXorOut : Half := 0xFFFF#16

/-- `CRC_REFIN` (R8; UNVERIFIED, log entry 4): false, each byte enters most significant bit first. -/
def crcRefIn : Bool := false

/-- `CRC_REFOUT` (R8; UNVERIFIED, log entry 4): false, the register is not bit-reversed at the end. -/
def crcRefOut : Bool := false

/-- The parameter values of this hardware (R9; log entry 3). -/
def hardware : Config where
  crcCover := .six
  decodeCommit := .overwrite
  regReadbackFix := false
  opndW := 32
  rawLenW := 4

end Sys2Proof.Machine
end

