-- ==== Sys2Proof/Machine/Frame.lean ====
section
/-! DEFINITION. The frame buffer as eight byte registers, its access primitives and its named views
(spec/10_state.md R13, R14; spec/20_memory.md R27 to R31). -/

namespace Sys2Proof.Machine

/-- The frame buffer `F[0..7]`: eight byte registers, `b<i>` at wire offset `i` (R13; log entry 14). -/
structure FrameBuf where
  b0 : Byte
  b1 : Byte
  b2 : Byte
  b3 : Byte
  b4 : Byte
  b5 : Byte
  b6 : Byte
  b7 : Byte
deriving DecidableEq, Repr

/-- Eight zero bytes. -/
def FrameBuf.zero : FrameBuf := ⟨0#8, 0#8, 0#8, 0#8, 0#8, 0#8, 0#8, 0#8⟩

/-- Read of `F[i]`, `i <= 7`. No rule reads an offset above 7 (R28) and no access of the model does. -/
def FrameBuf.get (f : FrameBuf) : Nat → Byte
  | 0 => f.b0
  | 1 => f.b1
  | 2 => f.b2
  | 3 => f.b3
  | 4 => f.b4
  | 5 => f.b5
  | 6 => f.b6
  | 7 => f.b7
  | _ => 0#8

/-- `F[i] <- v`, `i <= 7`. -/
def FrameBuf.set (f : FrameBuf) (i : Nat) (v : Byte) : FrameBuf :=
  match i with
  | 0 => { f with b0 := v }
  | 1 => { f with b1 := v }
  | 2 => { f with b2 := v }
  | 3 => { f with b3 := v }
  | 4 => { f with b4 := v }
  | 5 => { f with b5 := v }
  | 6 => { f with b6 := v }
  | 7 => { f with b7 := v }
  | _ => f

/-- The bytes in increasing wire offset. -/
def FrameBuf.toList (f : FrameBuf) : List Byte := [f.b0, f.b1, f.b2, f.b3, f.b4, f.b5, f.b6, f.b7]

/-- The `n` bytes from offset `addr` on as one value, the byte at the lower offset less significant. -/
def FrameBuf.bytesFrom (f : FrameBuf) (addr : Nat) : (n : Nat) → BitVec (8 * n)
  | 0 => 0#0
  | n + 1 => (f.get (addr + n) ++ f.bytesFrom addr n).cast (by omega)

/-- `MemRead(addr, n)` (R28): the `n`-byte little-endian value at offsets `addr` to `addr+n-1`. An access that leaves the
buffer cannot be written: the function asks for the proof that `addr + n <= 8`. -/
def FrameBuf.memRead (f : FrameBuf) (addr n : Nat) (_inside : addr + n ≤ 8 := by decide) : BitVec (8 * n) :=
  f.bytesFrom addr n

/-- `MemWrite(addr, n, v)` (R28): `F[addr+k] <- (v >> 8k)[7:0]` for `k < n`, in increasing `k`. -/
def FrameBuf.memWrite (f : FrameBuf) (addr n : Nat) (v : BitVec (8 * n)) (_inside : addr + n ≤ 8 := by decide) :
    FrameBuf :=
  (List.range n).foldl (fun g k => g.set (addr + k) (v.extractLsb' (8 * k) 8)) f

/-- `HDR` (R14). -/
def FrameBuf.hdr (f : FrameBuf) : Half := f.memRead 0 2

/-- `PAY` (R14). -/
def FrameBuf.pay (f : FrameBuf) : Word := f.memRead 2 4

/-- `SEG0` (R14). -/
def FrameBuf.seg0 (f : FrameBuf) : Half := f.memRead 2 2

/-- `SEG1` (R14). -/
def FrameBuf.seg1 (f : FrameBuf) : Half := f.memRead 4 2

/-- `CRCF` (R14). -/
def FrameBuf.crcf (f : FrameBuf) : Half := f.memRead 6 2

/-- `FRAME64` (R14). -/
def FrameBuf.frame64 (f : FrameBuf) : Raw := f.memRead 0 8

/-- Byte lane `i` of a 64-bit port: bits `8i+7 : 8i` (R52, R53). -/
def rawByte (raw : Raw) (i : Nat) : Byte := raw.extractLsb' (8 * i) 8

/-- The eight bytes a 64-bit `op_raw` carries (R52). -/
def FrameBuf.ofRaw (raw : Raw) : FrameBuf :=
  ⟨rawByte raw 0, rawByte raw 1, rawByte raw 2, rawByte raw 3, rawByte raw 4, rawByte raw 5, rawByte raw 6,
    rawByte raw 7⟩

end Sys2Proof.Machine
end

