-- ==== Sys2Proof/Machine/Crc.lean ====
section
/-! DEFINITION. The CRC-16/GENIBUS generator as functions of the register value
(spec/40_crc_generator.md R56 to R61). The state-level micro-operations on `CREG` stand in Ops.lean. -/

namespace Sys2Proof.Machine

/-- `CRC.BIT d` on the register value (R59): shift left by one, exclusive-OR the polynomial when the feedback bit
`CREG[15] ^ d` is 1. -/
def crcBitStep (c : Half) (d : Bool) : Half :=
  if (c.getLsbD 15 ^^ d) = true then (c <<< 1) ^^^ crcPoly else c <<< 1

/-- The bits of a byte in the order they enter the register (R60; the order is `CRC_REFIN`'s, R8). -/
def byteBits (b : Byte) : List Bool :=
  if crcRefIn = true then
    [b.getLsbD 0, b.getLsbD 1, b.getLsbD 2, b.getLsbD 3, b.getLsbD 4, b.getLsbD 5, b.getLsbD 6, b.getLsbD 7]
  else
    [b.getLsbD 7, b.getLsbD 6, b.getLsbD 5, b.getLsbD 4, b.getLsbD 3, b.getLsbD 2, b.getLsbD 1, b.getLsbD 0]

/-- `CRC.BYTE b` on the register value (R60): eight bit steps. -/
def crcByteStep (c : Half) (b : Byte) : Half := (byteBits b).foldl crcBitStep c

/-- `CRC.FINAL` (R61): every bit inverted; bit-reversed first only if `CRC_REFOUT` (R8). -/
def crcFinalValue (c : Half) : Half := (if crcRefOut = true then c.reverse else c) ^^^ crcXorOut

/-- The register after the bytes, started from `c`. -/
def crcRegister (c : Half) (bytes : List Byte) : Half := bytes.foldl crcByteStep c

/-- `CRC16(bytes)` (R56). -/
def crc16 (bytes : List Byte) : Half := crcFinalValue (crcRegister crcInitValue bytes)

/-- The bytes of the buffer that the CRC covers (R57). -/
def coveredBytes (c : Config) (f : FrameBuf) : List Byte := f.toList.take c.crcCover.bytes

/-- `FRAMECRC()` as a value (R57). -/
def frameCrcOf (c : Config) (f : FrameBuf) : Half := crc16 (coveredBytes c f)

end Sys2Proof.Machine
end

