-- ==== Sys2Proof/Machine/Flags.lean ====
section
/-! DEFINITION. The flags of the spec: the access flag `ACC` of a frame (spec/30_encoding.md R48) and what the validity
flag `VALID` compares (spec/10_state.md R16, R17). No other flag exists. -/

namespace Sys2Proof.Machine

/-- `ACC = bool(DATA != 0)`, from the masked 16-bit data (R48). -/
def accessFlag (data : Half) : Bool := data != 0#16

/-- `match` of R76: the trailer of the buffer equals the computed CRC. -/
def trailerMatches (computed : Half) (f : FrameBuf) : Bool := computed == f.crcf

end Sys2Proof.Machine
end

