-- ==== Sys2Proof/Machine/Operands.lean ====
section
/-! DEFINITION. Operand assembly, the two payload layouts and the unpacker
(spec/30_encoding.md R42 to R48, spec/41_frame_encoder.md R75, spec/42_frame_decoder.md R77). -/

namespace Sys2Proof.Machine

/-- The logical fields of a payload (R43, R45). -/
structure Fields where
  acc : Bool
  wr : Bool
  rank : BitVec 2
  reg : BitVec 12
  data : Half
deriving DecidableEq, Repr

/-- `RANK = rank mod 4` (R47). -/
def rankField (rank : Nat) : BitVec 2 := BitVec.ofNat 2 (rank % 4)

/-- `REG = register mod 4096` (R47). -/
def regField (reg : Nat) : BitVec 12 := BitVec.ofNat 12 (reg % 4096)

/-- `DATA = data mod 65536` (R47). -/
def dataField (data : Nat) : Half := BitVec.ofNat 16 (data % 65536)

/-- The operands of `FILL` masked to their fields, the access flag derived from the masked data (R47, R48). -/
def assemble (isWrite : Bool) (rank reg data : Nat) : Fields where
  acc := accessFlag (dataField data)
  wr := isWrite
  rank := rankField rank
  reg := regField reg
  data := dataField data

/-- `CTRL16 = {ACC, WR, RANK, REG}` (R44). -/
def ctrl16 (x : Fields) : Half := BitVec.ofBool x.acc ++ BitVec.ofBool x.wr ++ x.rank ++ x.reg

/-- Variant A payload `{ACC, WR, RANK, REG, DATA}` (R43). -/
def payA (x : Fields) : Word := BitVec.ofBool x.acc ++ BitVec.ofBool x.wr ++ x.rank ++ x.reg ++ x.data

/-- Variant B `SEG0 = CTRL16` (R45). -/
def seg0B (x : Fields) : Half := ctrl16 x

/-- Variant B `SEG1 = DATA` (R45). -/
def seg1B (x : Fields) : Half := x.data

/-- `UNPACK(CTRL16, DATA16, regmask)` (R77): the stored access bit, not a recomputed one. -/
def unpack (ctrl data : Half) (mask : BitVec 12) : Fields where
  acc := ctrl.getLsbD 15
  wr := ctrl.getLsbD 14
  rank := ((ctrl >>> 12) &&& 0x3#16).setWidth 2
  reg := ctrl.setWidth 12 &&& mask
  data := data

/-- `{CRCF, PAY, HDR}` with the header `0xBEEF` and a Variant A payload (R42, row FRAME.A). -/
def frameWordA (crcf : Half) (x : Fields) : Raw := crcf ++ payA x ++ headerMagic

/-- `{CRCF, SEG1, SEG0, HDR}` with the header `0xBEEF` and a Variant B payload (R42, row FRAME.B). -/
def frameWordB (crcf : Half) (x : Fields) : Raw := crcf ++ seg1B x ++ seg0B x ++ headerMagic

end Sys2Proof.Machine
end

