-- ==== Sys2Proof/Syntax.lean ====
section
/-! DEFINITION. The commands of CODEC, one constructor per row of spec/opcode_table.json, and the ports a command is
presented on (spec/30_encoding.md R49 to R55). -/

namespace Sys2Proof

/-- One constructor per row of the opcode table. Operands of `FILL` and `LDRAW` are natural numbers (D7); their port
widths are checked by `wellFormed`. -/
inductive Instr where
  /-- `DEFAULT` (R68). -/
  | defaultFrame
  /-- `FILL.A is_write, rank, register, data` (R69). -/
  | fillA (isWrite : Bool) (rank reg data : Nat)
  /-- `FILL.B is_write, rank, register, data` (R70). -/
  | fillB (isWrite : Bool) (rank reg data : Nat)
  /-- `UPDCRC` (R72). -/
  | updcrc
  /-- `RDRAW` (R73). -/
  | rdraw
  /-- `LDRAW`: `op_raw_len` and `op_raw` (R76). -/
  | ldraw (len : Nat) (raw : Raw)
  /-- `PARSE.A` (R78). -/
  | parseA
  /-- `PARSE.B` (R79). -/
  | parseB
  /-- Reserved command word `0b0110` (R51). -/
  | reserved0110
  /-- Reserved command word `0b0111` (R51). -/
  | reserved0111
  /-- Reserved command word `0b1110` (R51). -/
  | reserved1110
  /-- Reserved command word `0b1111` (R51). -/
  | reserved1111
  /-- Reserved command word `0b1000` (R51). -/
  | reserved1000
  /-- Reserved command word `0b1010` (R51). -/
  | reserved1010
  /-- Reserved command word `0b1011` (R51). -/
  | reserved1011
  /-- Reserved command word `0b1100` (R51). -/
  | reserved1100
  /-- Pseudo-command `FILLE.A is_write, rank, register` (R55, R71). -/
  | filleA (isWrite : Bool) (rank reg : Nat)
  /-- Pseudo-command `FILLE.B is_write, rank, register` (R55, R71). -/
  | filleB (isWrite : Bool) (rank reg : Nat)
  /-- Data format `FRAME.A`: a 64-bit frame with a Variant A payload and the header `0xBEEF` (R42, R43). -/
  | frameA (crcf : Half) (acc wr : Bool) (rank : BitVec 2) (reg : BitVec 12) (data : Half)
  /-- Data format `FRAME.B`: a 64-bit frame with a Variant B payload and the header `0xBEEF` (R42, R45). -/
  | frameB (crcf : Half) (acc wr : Bool) (rank : BitVec 2) (reg : BitVec 12) (data : Half)
deriving DecidableEq, Repr

/-- The command port (R49, R52): the command word and every operand port, as the host drives them for one command. -/
structure Ports where
  cmdOp : BitVec 4
  opIsWrite : Bool
  opRank : Nat
  opReg : Nat
  opData : Nat
  opRawLen : Nat
  opRaw : Raw
deriving DecidableEq, Repr

end Sys2Proof
end

