-- ==== Sys2Proof/WellFormed.lean ====
section
/-! DEFINITION. Which commands and which port values exist on an instance with given operand widths
(spec/30_encoding.md R52). -/

namespace Sys2Proof

/-- `v` fits an unsigned port of `w` bits. -/
def fits (w v : Nat) : Bool := decide (v < 2 ^ w)

/-- Every operand fits its port: `OPND_W` bits for `rank`, `register`, `data`, `RAW_LEN_W` bits for the length (R52).
A command without operands of those kinds is always well-formed; no operand VALUE is an error (R47, R87). -/
def wellFormed (c : Config) : Instr → Bool
  | .fillA _ rank reg data => fits c.opndW rank && fits c.opndW reg && fits c.opndW data
  | .fillB _ rank reg data => fits c.opndW rank && fits c.opndW reg && fits c.opndW data
  | .filleA _ rank reg => fits c.opndW rank && fits c.opndW reg
  | .filleB _ rank reg => fits c.opndW rank && fits c.opndW reg
  | .ldraw len _ => fits c.rawLenW len
  | .defaultFrame => true
  | .updcrc => true
  | .rdraw => true
  | .parseA => true
  | .parseB => true
  | .reserved0110 => true
  | .reserved0111 => true
  | .reserved1110 => true
  | .reserved1111 => true
  | .reserved1000 => true
  | .reserved1010 => true
  | .reserved1011 => true
  | .reserved1100 => true
  | .frameA _ _ _ _ _ _ => true
  | .frameB _ _ _ _ _ _ => true

/-- Every operand port holds a value of its width (R52). -/
def Ports.wf (c : Config) (p : Ports) : Bool :=
  fits c.opndW p.opRank && fits c.opndW p.opReg && fits c.opndW p.opData && fits c.rawLenW p.opRawLen

end Sys2Proof
end

