-- ==== Sys2Proof/Decode.lean ====
section
/-! DEFINITION. The decoder from the command port, the encoder after it, the frame formats, and the numbering of a
command's bits (spec/30_encoding.md R42 to R55). -/

namespace Sys2Proof

open Sys2Proof.Machine

/-- The opcode map (R50) and the reserved words (R51), on the bits `v`, `fn[2]`, `fn[1]`, `fn[0]` of the command word
(R49). Total: all 16 words have a row. A command takes the operand ports R52 lists for it and no other. -/
def decode (p : Ports) : Instr :=
  match p.cmdOp.getLsbD 3, p.cmdOp.getLsbD 2, p.cmdOp.getLsbD 1, p.cmdOp.getLsbD 0 with
  | false, false, false, false => .defaultFrame
  | false, false, false, true => .fillA p.opIsWrite p.opRank p.opReg p.opData
  | true, false, false, true => .fillB p.opIsWrite p.opRank p.opReg p.opData
  | false, false, true, false => .updcrc
  | false, false, true, true => .rdraw
  | false, true, false, false => .ldraw p.opRawLen p.opRaw
  | false, true, false, true => .parseA
  | true, true, false, true => .parseB
  | false, true, true, false => .reserved0110
  | false, true, true, true => .reserved0111
  | true, true, true, false => .reserved1110
  | true, true, true, true => .reserved1111
  | true, false, false, false => .reserved1000
  | true, false, true, false => .reserved1010
  | true, false, true, true => .reserved1011
  | true, true, false, false => .reserved1100

/-- Why a 64-bit word is not a frame of R42. -/
inductive DecodeError where
  /-- The header field is not `0xBEEF` (R42). -/
  | headerNotMagic
deriving DecidableEq, Repr

/-- The frame format `FRAME.A` read as data (R42, R43). -/
def decodeFrameA (w : Raw) : Except DecodeError Instr :=
  if w.setWidth 16 = headerMagic then
    .ok (.frameA (w.extractLsb' 48 16) (w.getLsbD 47) (w.getLsbD 46) (w.extractLsb' 44 2) (w.extractLsb' 32 12)
      (w.extractLsb' 16 16))
  else .error .headerNotMagic

/-- The frame format `FRAME.B` read as data (R42, R45). -/
def decodeFrameB (w : Raw) : Except DecodeError Instr :=
  if w.setWidth 16 = headerMagic then
    .ok (.frameB (w.extractLsb' 48 16) (w.getLsbD 31) (w.getLsbD 30) (w.extractLsb' 28 2) (w.extractLsb' 16 12)
      (w.extractLsb' 32 16))
  else .error .headerNotMagic

/-- The command whose words a row's words are: a pseudo-command is `FILL` with `data = 0` (R55, R71), a frame in a data
format is the buffer of an `LDRAW` of eight bytes (log entries 10, 11). Every other command is itself. -/
def expand : Instr → Instr
  | .filleA w r g => .fillA w r g 0
  | .filleB w r g => .fillB w r g 0
  | .frameA crcf acc wr rank reg data => .ldraw 8 (frameWordA crcf ⟨acc, wr, rank, reg, data⟩)
  | .frameB crcf acc wr rank reg data => .ldraw 8 (frameWordB crcf ⟨acc, wr, rank, reg, data⟩)
  | .defaultFrame => .defaultFrame
  | .fillA w r g d => .fillA w r g d
  | .fillB w r g d => .fillB w r g d
  | .updcrc => .updcrc
  | .rdraw => .rdraw
  | .ldraw n raw => .ldraw n raw
  | .parseA => .parseA
  | .parseB => .parseB
  | .reserved0110 => .reserved0110
  | .reserved0111 => .reserved0111
  | .reserved1110 => .reserved1110
  | .reserved1111 => .reserved1111
  | .reserved1000 => .reserved1000
  | .reserved1010 => .reserved1010
  | .reserved1011 => .reserved1011
  | .reserved1100 => .reserved1100

/-- A command word with every operand port at 0. -/
def bareWord (op : BitVec 4) : Ports := ⟨op, false, 0, 0, 0, 0, 0#64⟩

/-- The ports a command is presented on (R50 to R52, R55). A port the command does not read is driven to 0. -/
def encode : Instr → Ports
  | .defaultFrame => bareWord 0b0000#4
  | .fillA w r g d => ⟨0b0001#4, w, r, g, d, 0, 0#64⟩
  | .fillB w r g d => ⟨0b1001#4, w, r, g, d, 0, 0#64⟩
  | .updcrc => bareWord 0b0010#4
  | .rdraw => bareWord 0b0011#4
  | .ldraw n raw => ⟨0b0100#4, false, 0, 0, 0, n, raw⟩
  | .parseA => bareWord 0b0101#4
  | .parseB => bareWord 0b1101#4
  | .reserved0110 => bareWord 0b0110#4
  | .reserved0111 => bareWord 0b0111#4
  | .reserved1110 => bareWord 0b1110#4
  | .reserved1111 => bareWord 0b1111#4
  | .reserved1000 => bareWord 0b1000#4
  | .reserved1010 => bareWord 0b1010#4
  | .reserved1011 => bareWord 0b1011#4
  | .reserved1100 => bareWord 0b1100#4
  | .filleA w r g => ⟨0b0001#4, w, r, g, 0, 0, 0#64⟩
  | .filleB w r g => ⟨0b1001#4, w, r, g, 0, 0, 0#64⟩
  | .frameA crcf acc wr rank reg data =>
    ⟨0b0100#4, false, 0, 0, 0, 8, frameWordA crcf ⟨acc, wr, rank, reg, data⟩⟩
  | .frameB crcf acc wr rank reg data =>
    ⟨0b0100#4, false, 0, 0, 0, 8, frameWordB crcf ⟨acc, wr, rank, reg, data⟩⟩

/-- The ports of one command as one number, bit 0 the least significant: `cmd_op`, then the operand ports in the order
of R52, with the widths of the instance. DESIGN CHOICE (log entry 12): the spec joins the ports into no word; the opcode
table numbers `cmd_op` from bit 0 and this numbering goes on above it. -/
def portsToBits (c : Config) (p : Ports) : Nat :=
  p.cmdOp.toNat + 2 ^ 4 * (p.opIsWrite.toNat + 2 ^ 1 * (p.opRank + 2 ^ c.opndW * (p.opReg + 2 ^ c.opndW *
    (p.opData + 2 ^ c.opndW * (p.opRawLen + 2 ^ c.rawLenW * p.opRaw.toNat)))))

/-- The ports that a number of `portsToBits` stands for. -/
def portsOfBits (c : Config) (w : Nat) : Ports :=
  let w1 := w / 2 ^ 4
  let w2 := w1 / 2 ^ 1
  let w3 := w2 / 2 ^ c.opndW
  let w4 := w3 / 2 ^ c.opndW
  let w5 := w4 / 2 ^ c.opndW
  let w6 := w5 / 2 ^ c.rawLenW
  { cmdOp := BitVec.ofNat 4 w
    opIsWrite := w1 % 2 ^ 1 == 1
    opRank := w2 % 2 ^ c.opndW
    opReg := w3 % 2 ^ c.opndW
    opData := w4 % 2 ^ c.opndW
    opRawLen := w5 % 2 ^ c.rawLenW
    opRaw := BitVec.ofNat 64 w6 }

/-- The ports a word of an opcode-table row is presented on. A word of 64 bits is a row of format FRAME64: a frame, which
reaches the block as the buffer of an `LDRAW` of eight bytes (log entries 11, 12). Any other word is a command word with
the operand bits above it. -/
def tablePorts (nbits w : Nat) : Ports :=
  if nbits = 64 then ⟨0b0100#4, false, 0, 0, 0, 8, BitVec.ofNat 64 w⟩ else portsOfBits hardware w

/-- What the decoder reads from a word of an opcode-table row. The two frame formats share every word (R42: nothing in a
frame says which layout it has), so a 64-bit word is read as `FRAME.A` (log entry 11); `none` where its header is not
`0xBEEF`. -/
def decodeTableWord (nbits w : Nat) : Option Instr :=
  if nbits = 64 then
    match decodeFrameA (BitVec.ofNat 64 w) with
    | .ok i => some i
    | .error _ => none
  else some (decode (tablePorts nbits w))

end Sys2Proof
end

