-- ==== Sys2Proof/Machine/State.lean ====
section
/-! DEFINITION. The state of a CODEC instance, its response port, the events of the host, and the state after reset
(spec/10_state.md, spec/30_encoding.md R53, spec/70_reset_and_hazards.md R97). -/

namespace Sys2Proof.Machine

/-- `rsp_status` (R53, R83). -/
inductive Status where
  | ok
  | crcMismatch
  | badLength
  | badCommand
deriving DecidableEq, Repr

/-- One response (R53): every field of the response port. -/
structure Response where
  status : Status
  raw : Raw
  isAccess : Bool
  isWrite : Bool
  rank : BitVec 2
  reg : BitVec 12
  data : Half
deriving DecidableEq, Repr

/-- What the host does at the boundary of the block (R49, R97). -/
inductive Event where
  /-- One command, presented on the ports. -/
  | command (p : Ports)
  /-- Assertion of the reset input, with the command it finds in progress, if any, which is abandoned (R97). -/
  | reset (abandoned : Option Ports)
deriving DecidableEq, Repr

/-- The state. `f`, `valid`, `creg` and `shadow` are the spec's (R12); the other fields hold what surrounds the block:
its parameters, the host's input still to be accepted, the responses given, and the model's counter of free values. -/
structure State where
  /-- The frame buffer `F[0..7]` (R13). -/
  f : FrameBuf
  /-- The validity flag `VALID` (R16). -/
  valid : Bool
  /-- The CRC accumulator `CREG` (R18). -/
  creg : Half
  /-- The scratch buffer `SHADOW[0..7]` (R19), used only with `DECODE_COMMIT = SCRATCH` (log entry 6). -/
  shadow : FrameBuf
  /-- The parameters of the instance (R9, R23), changed by no step (log entry 3). -/
  cfg : Config
  /-- What the host has presented and the block has not accepted yet, oldest first (log entry 1). -/
  events : List Event
  /-- The responses given, newest first (R53, R109; log entry 2). -/
  rsps : List Response
  /-- MODEL'S OWN: how many values of `CREG` have been drawn (log entry 5). -/
  draws : Nat
deriving DecidableEq, Repr

/-- Nothing stops the machine: an error of the spec is the status of a response (R82) and every command in every state
has a next state (R91). So no fault exists (log entry 13). -/
inductive Fault where
deriving DecidableEq, Repr

/-- Refusals of the model. -/
inductive Refusal where
  /-- Raised by `exec` for a command that has no meaning yet; safe. No command is left without one. -/
  | notModelled (mnemonic : String)
deriving DecidableEq, Repr

/-- The frame buffer after reset, the table of R25. -/
def FrameBuf.reset : CrcCover → FrameBuf
  | .six => ⟨0xEF#8, 0xBE#8, 0x00#8, 0x00#8, 0x00#8, 0x00#8, 0x42#8, 0x5E#8⟩
  | .five => ⟨0xEF#8, 0xBE#8, 0x00#8, 0x00#8, 0x00#8, 0x00#8, 0x8D#8, 0xE3#8⟩

/-- An instance with the parameters `c` right after reset (R25), with nothing presented yet. `shadow` is unspecified
there: zero, DESIGN CHOICE (log entry 6). `draws`: DESIGN CHOICE (log entry 5). -/
def State.resetWith (c : Config) : State where
  f := FrameBuf.reset c.crcCover
  valid := true
  creg := 0xFFFF#16
  shadow := FrameBuf.zero
  cfg := c
  events := []
  rsps := []
  draws := 0

/-- This hardware right after reset (R9, R25, R97). -/
def State.reset : State := State.resetWith hardware

end Sys2Proof.Machine
end

