-- ==== Sys2Proof/Machine/Ops.lean ====
section
/-! DEFINITION. The operations the meanings are made of: writes of the state, the micro-operations of `CRCGEN`
(spec/40_crc_generator.md R57 to R61, R65, R66), responses and errors (spec/60_exceptions.md R82, R83), the reset event
(spec/70_reset_and_hazards.md R97). -/

namespace Sys2Proof.Machine

/-- What one command answers with. -/
abbrev Result := Host.Outcome State Fault Refusal

/-- Write of the whole frame buffer. -/
def State.setF (s : State) (f : FrameBuf) : State := { s with f := f }

/-- `VALID <- b` (R16). -/
def State.setValid (s : State) (b : Bool) : State := { s with valid := b }

/-- `CREG <- c` (R18). -/
def State.setCreg (s : State) (c : Half) : State := { s with creg := c }

/-- Write of `SHADOW[0..7]` (R19). -/
def State.setShadow (s : State) (f : FrameBuf) : State := { s with shadow := f }

/-- The host's input still to be accepted. -/
def State.setEvents (s : State) (es : List Event) : State := { s with events := es }

/-- One more response given (R53). -/
def State.answer (s : State) (r : Response) : State := { s with rsps := r :: s.rsps }

/-- `CREG` takes a free value: nothing constrains it once a CRC computation is over (93 U13; log entry 5). -/
def State.drawCreg (s : State) : State := { s with creg := Config.freeCreg s.draws, draws := s.draws + 1 }

/-- `MemWrite(addr, n, v)` on the frame buffer of the state (R28). -/
def State.memWrite (s : State) (addr n : Nat) (v : BitVec (8 * n)) (inside : addr + n ≤ 8 := by decide) : State :=
  s.setF (s.f.memWrite addr n v inside)

/-- The output `frame_valid` (R16, R53). -/
def State.frameValid (s : State) : Bool := s.valid

/-- `CRC.INIT` (R58). -/
def crcInit (s : State) : State := s.setCreg crcInitValue

/-- `CRC.BIT d` (R59). -/
def crcBit (s : State) (d : Bool) : State := s.setCreg (crcBitStep s.creg d)

/-- `CRC.BYTE b` (R60): `CRC.BIT` of the bits of the byte, in the order they enter. -/
def crcByte (s : State) (b : Byte) : State := (byteBits b).foldl crcBit s

/-- `CRC.FINAL` (R61): the result, read from `CREG`. -/
def crcFinal (s : State) : Half := crcFinalValue s.creg

/-- One whole CRC computation (R56, R66): `CRC.INIT`, `CRC.BYTE` of each byte in order, `CRC.FINAL`. It leaves `CREG`
at a value nothing depends on. -/
def crcRun (s : State) (bytes : List Byte) : Half × State :=
  let s1 := bytes.foldl crcByte (crcInit s)
  (crcFinal s1, s1.drawCreg)

/-- `FRAMECRC()` (R57). -/
def frameCrc (s : State) : Half × State := crcRun s (coveredBytes s.cfg s.f)

/-- `MemWrite(6, 2, FRAMECRC())` (R65, R72): the trailer, little-endian. -/
def stampCrc (s : State) : State :=
  let (crc, s1) := frameCrc s
  s1.memWrite 6 2 crc

/-- The response with a status and zero in every other field (R53). -/
def Response.bare (st : Status) : Response := ⟨st, 0#64, false, false, 0#2, 0#12, 0#16⟩

/-- `respond(fields)` with the whole response given (00_scope.md section 6): the command ends. -/
def respond (s : State) (r : Response) : Result := .next (s.answer r)

/-- `respond()`: status `OK`, no field. -/
def respondOk (s : State) : Result := respond s (Response.bare .ok)

/-- `raise E()`: taking an error (R82). The command ends with the error as its status and zero in every other field;
what was written stays written; nothing is saved, no mode changes, and the next command is accepted as usual. There is
no return from an error (R90). -/
def raise (s : State) (st : Status) : Result := respond s (Response.bare st)

/-- The numeric status code on the 2-bit port `rsp_status` (R83). -/
def statusCode : Status → BitVec 2
  | .ok => 0#2
  | .crcMismatch => 1#2
  | .badLength => 2#2
  | .badCommand => 3#2

/-- The common end of `DEFAULT`, `FILL` and `UPDCRC` (R68 to R70, R72): stamp the trailer, `VALID <- 1`. -/
def sealFrame (s : State) : State := (stampCrc s).setValid true

/-- The frame of `DEFAULT` (R68): header, zero payload, trailer, `VALID <- 1`. -/
def writeDefaultFrame (s : State) : State :=
  sealFrame ((s.memWrite 0 2 headerMagic).memWrite 2 4 0#32)

/-- The effect of `RESET` (R97): that of `DEFAULT` on `F` and `VALID`, and `CREG <- 0xFFFF`. `SHADOW` is unspecified after
it (R25) and takes the value `State.reset` gives it (log entry 6). -/
def applyReset (s : State) : State := ((writeDefaultFrame s).setCreg crcInitValue).setShadow FrameBuf.zero

end Sys2Proof.Machine
end

