-- ==== Sys2Proof/Machine/Decoder.lean ====
section
/-! DEFINITION. The meanings of the decoder family `DEC` (spec/42_frame_decoder.md R76 to R79): `LDRAW`, `PARSE.A`,
`PARSE.B`, and of the two data formats `FRAME.A`, `FRAME.B`, whose one way into the block is `LDRAW` (log entry 11). -/

namespace Sys2Proof.Machine

/-- The commit of a received buffer of the right length (R76), `s` the state after the CRC was computed. -/
def commitBuffer (b : FrameBuf) (computed : Half) (s : State) : Result :=
  match s.cfg.decodeCommit with
  | .overwrite =>
    let s1 := (s.setF b).setValid (trailerMatches computed b)
    if trailerMatches computed b = true then respondOk s1 else raise s1 .crcMismatch
  | .scratch =>
    let s1 := s.setShadow b
    if trailerMatches computed b = true then respondOk ((s1.setF s1.shadow).setValid true)
    else raise s1 .crcMismatch

/-- `LDRAW` of `len` bytes presented as `raw` (R76): the length first, then the CRC. -/
def loadBuffer (len : Nat) (raw : Raw) (s : State) : Result :=
  if len = 8 then
    let b := FrameBuf.ofRaw raw
    let (computed, s1) := crcRun s (coveredBytes s.cfg b)
    commitBuffer b computed s1
  else raise s .badLength

/-- The response of `PARSE` (R53, R78, R79). -/
def Response.ofFields (x : Fields) : Response := ⟨.ok, 0#64, x.acc, x.wr, x.rank, x.reg, x.data⟩

/-- The register mask of Variant A's read-back (R78): the rank mask unless `REG_READBACK_FIX = 1`. -/
def readbackMaskA (c : Config) : BitVec 12 := if c.regReadbackFix = true then regMask else rankMask

/-- `LDRAW` (R76). -/
def execLdraw (len : Nat) (raw : Raw) (s : State) : Result := loadBuffer len raw s

/-- `PARSE.A` (R78). -/
def execParseA (s : State) : Result :=
  if s.valid = false then raise s .crcMismatch
  else respond s (Response.ofFields
    (unpack (s.f.pay.extractLsb' 16 16) (s.f.pay.extractLsb' 0 16) (readbackMaskA s.cfg)))

/-- `PARSE.B` (R79). -/
def execParseB (s : State) : Result :=
  if s.valid = false then raise s .crcMismatch
  else respond s (Response.ofFields (unpack s.f.seg0 s.f.seg1 regMask))

/-- A Variant A frame received from the wire: `LDRAW` of its eight bytes (R42, R43, R76; log entry 11). -/
def execFrameA (crcf : Half) (acc wr : Bool) (rank : BitVec 2) (reg : BitVec 12) (data : Half) (s : State) : Result :=
  loadBuffer 8 (frameWordA crcf ⟨acc, wr, rank, reg, data⟩) s

/-- A Variant B frame received from the wire: `LDRAW` of its eight bytes (R42, R45, R76; log entry 11). -/
def execFrameB (crcf : Half) (acc wr : Bool) (rank : BitVec 2) (reg : BitVec 12) (data : Half) (s : State) : Result :=
  loadBuffer 8 (frameWordB crcf ⟨acc, wr, rank, reg, data⟩) s

end Sys2Proof.Machine
end

