-- ==== Sys2Proof/Machine/Encoder.lean ====
section
/-! DEFINITION. The meanings of the encoder family `ENC` (spec/41_frame_encoder.md R67 to R73): `DEFAULT`, `FILL.A`,
`FILL.B`, `FILLE.A`, `FILLE.B`, `UPDCRC`, `RDRAW`. -/

namespace Sys2Proof.Machine

/-- `MemWrite(2, 4, {ACC, WR, RANK, REG, DATA})` and the common end (R69). -/
def fillPayloadA (x : Fields) (s : State) : Result := respondOk (sealFrame (s.memWrite 2 4 (payA x)))

/-- `MemWrite(2, 2, SEG0)`, `MemWrite(4, 2, SEG1)` and the common end (R70). -/
def fillPayloadB (x : Fields) (s : State) : Result :=
  respondOk (sealFrame ((s.memWrite 2 2 (seg0B x)).memWrite 4 2 (seg1B x)))

/-- `DEFAULT` (R68). -/
def execDefault (s : State) : Result := respondOk (writeDefaultFrame s)

/-- `FILL.A` (R69). -/
def execFillA (isWrite : Bool) (rank reg data : Nat) (s : State) : Result :=
  fillPayloadA (assemble isWrite rank reg data) s

/-- `FILL.B` (R70). -/
def execFillB (isWrite : Bool) (rank reg data : Nat) (s : State) : Result :=
  fillPayloadB (assemble isWrite rank reg data) s

/-- `FILLE.A` (R71): `FILL.A` with `data = 0`. -/
def execFilleA (isWrite : Bool) (rank reg : Nat) (s : State) : Result :=
  fillPayloadA (assemble isWrite rank reg 0) s

/-- `FILLE.B` (R71): `FILL.B` with `data = 0`. -/
def execFilleB (isWrite : Bool) (rank reg : Nat) (s : State) : Result :=
  fillPayloadB (assemble isWrite rank reg 0) s

/-- `UPDCRC` (R72). -/
def execUpdcrc (s : State) : Result := respondOk (sealFrame s)

/-- `RDRAW` (R73): a copy of the frame, or `CrcMismatch` while `VALID = 0`. -/
def execRdraw (s : State) : Result :=
  if s.valid = false then raise s .crcMismatch
  else respond s { Response.bare .ok with raw := s.f.frame64 }

end Sys2Proof.Machine
end

