-- ==== Sys2Proof/Machine/Reserved.lean ====
section
/-! DEFINITION. The meanings of the eight reserved command words (spec/30_encoding.md R51, spec/60_exceptions.md R86):
each answers `BadCommand` and changes no state. -/

namespace Sys2Proof.Machine

/-- Reserved word `0b0110` (R86). -/
def execReserved0110 (s : State) : Result := raise s .badCommand

/-- Reserved word `0b0111` (R86). -/
def execReserved0111 (s : State) : Result := raise s .badCommand

/-- Reserved word `0b1110` (R86). -/
def execReserved1110 (s : State) : Result := raise s .badCommand

/-- Reserved word `0b1111` (R86). -/
def execReserved1111 (s : State) : Result := raise s .badCommand

/-- Reserved word `0b1000` (R86). -/
def execReserved1000 (s : State) : Result := raise s .badCommand

/-- Reserved word `0b1010` (R86). -/
def execReserved1010 (s : State) : Result := raise s .badCommand

/-- Reserved word `0b1011` (R86). -/
def execReserved1011 (s : State) : Result := raise s .badCommand

/-- Reserved word `0b1100` (R86). -/
def execReserved1100 (s : State) : Result := raise s .badCommand

end Sys2Proof.Machine
end

