-- ==== Sys2Proof/Machine/Dispatch.lean ====
section
/-! DEFINITION. One arm per row of spec/opcode_table.json. -/

namespace Sys2Proof.Machine

def exec (i : Instr) (s : State) : Host.Outcome State Fault Refusal :=
  match i with
  | .defaultFrame => Sys2Proof.Machine.execDefault s
  | .fillA w r g d => Sys2Proof.Machine.execFillA w r g d s
  | .fillB w r g d => Sys2Proof.Machine.execFillB w r g d s
  | .updcrc => Sys2Proof.Machine.execUpdcrc s
  | .rdraw => Sys2Proof.Machine.execRdraw s
  | .ldraw n raw => Sys2Proof.Machine.execLdraw n raw s
  | .parseA => Sys2Proof.Machine.execParseA s
  | .parseB => Sys2Proof.Machine.execParseB s
  | .reserved0110 => Sys2Proof.Machine.execReserved0110 s
  | .reserved0111 => Sys2Proof.Machine.execReserved0111 s
  | .reserved1110 => Sys2Proof.Machine.execReserved1110 s
  | .reserved1111 => Sys2Proof.Machine.execReserved1111 s
  | .reserved1000 => Sys2Proof.Machine.execReserved1000 s
  | .reserved1010 => Sys2Proof.Machine.execReserved1010 s
  | .reserved1011 => Sys2Proof.Machine.execReserved1011 s
  | .reserved1100 => Sys2Proof.Machine.execReserved1100 s
  | .filleA w r g => Sys2Proof.Machine.execFilleA w r g s
  | .filleB w r g => Sys2Proof.Machine.execFilleB w r g s
  | .frameA crcf acc wr rank reg data => Sys2Proof.Machine.execFrameA crcf acc wr rank reg data s
  | .frameB crcf acc wr rank reg data => Sys2Proof.Machine.execFrameB crcf acc wr rank reg data s

end Sys2Proof.Machine
end

