-- ==== Sys2Proof/Machine/Port.lean ====
section
/-! DEFINITION. What a step accepts at the boundary of the block besides a command (spec/60_exceptions.md R95,
spec/70_reset_and_hazards.md R97). Step.lean calls these. -/

namespace Sys2Proof.Machine

/-- Nothing is presented: the block is idle and keeps `F` and `VALID` (R95; log entry 8). -/
def idleStep (s : State) : Result := .next s

/-- The reset input is asserted: the state after reset, no response, the command in progress abandoned (R97). -/
def resetStep (_abandoned : Option Ports) (s : State) : Result := .next (applyReset s)

/-- The ports `p` as the next thing the block accepts, before everything presented so far. -/
def State.present (s : State) (p : Ports) : State := s.setEvents (.command p :: s.events)

end Sys2Proof.Machine
end

