-- ==== Sys2Proof/Machine/Step.lean ====
section
/-! DEFINITION. One step: the oldest event the host has presented (spec/20_memory.md R37, spec/30_encoding.md R49,
spec/70_reset_and_hazards.md R97). -/

namespace Sys2Proof.Machine

/-- One command, or one reset, or one idle step. The event is taken off the queue before it is carried out. -/
def step (s : State) : Host.Outcome State Fault Refusal :=
  match s.events with
  | [] => idleStep s
  | .command p :: rest => exec (decode p) (s.setEvents rest)
  | .reset abandoned :: rest => resetStep abandoned (s.setEvents rest)

/-- The word of an opcode-table row presented as the next command (log entry 12). -/
def State.withFetchWord (s : State) (nbits w : Nat) : State := s.present (tablePorts nbits w)

end Sys2Proof.Machine
end

