-- ==== Sys2Proof/Safety.lean ====
section
/-! DEFINITION. What counts as a sound state and a run, in the terms the claims use (spec/10_state.md R17,
spec/20_memory.md R37, spec/70_reset_and_hazards.md R109). -/

namespace Sys2Proof.Machine

/-- R17: `VALID = 1` if and only if the trailer equals the CRC of the covered bytes. -/
abbrev ValidMeansMatching (s : State) : Prop := s.valid = true ↔ s.f.crcf = frameCrcOf s.cfg s.f

/-- R17, last sentence but one: with `DECODE_COMMIT = SCRATCH`, `VALID` is 1. -/
abbrev ScratchMeansValid (s : State) : Prop := s.cfg.decodeCommit = .scratch → s.valid = true

/-- The commands one after the other, each to completion before the next, stopping at a fault or a refusal (R37). -/
def execAll : List Instr → State → Result
  | [], s => .next s
  | i :: is, s =>
    match exec i s with
    | .next t => execAll is t
    | .fault r => .fault r
    | .refused r => .refused r

/-- What a run shows (R109): the responses in the order they were given, and `F` and `VALID` at its end. -/
def observation (s : State) : List Response × FrameBuf × Bool := (s.rsps.reverse, s.f, s.valid)

/-- Everything of a state that the host can come to see, now or later: not `CREG`, not `SHADOW` (R12, R18, R19), and not
the model's counter of free values. -/
def visible (s : State) : FrameBuf × Bool × Config × List Event × List Response :=
  (s.f, s.valid, s.cfg, s.events, s.rsps)

/-- What a command that writes the frame leaves alone, seen from outside `F`, `VALID`, `CREG` and the responses. -/
def KeepsSurroundings (s t : State) : Prop := t.shadow = s.shadow ∧ t.cfg = s.cfg ∧ t.events = s.events

/-- The eight reserved command words as commands (R51). -/
def reservedInstrs : List Instr :=
  [.reserved0110, .reserved0111, .reserved1110, .reserved1111, .reserved1000, .reserved1010, .reserved1011,
    .reserved1100]

/-- The eight reserved command words (R51). -/
def reservedWords : List (BitVec 4) :=
  [0b0110#4, 0b0111#4, 0b1110#4, 0b1111#4, 0b1000#4, 0b1010#4, 0b1011#4, 0b1100#4]

/-- The trailer of eight received bytes is the CRC of their covered bytes (R76, R84). -/
abbrev RawMatches (c : Config) (raw : Raw) : Prop :=
  crc16 ((List.range c.crcCover.bytes).map (rawByte raw)) = (rawByte raw 7 ++ rawByte raw 6 : BitVec 16)

end Sys2Proof.Machine
end

