-- ==== Sys2Proof/Certificates/Slice0/Obligations.lean ====
section
/-! DEFINITION. The statements about CODEC, from the numbered rules of spec/. -/

open Sys2Proof Sys2Proof.Machine

/-! ## The command port and the data formats -/

/-- R50, R51 (decoding only): every one of the 16 command words is read as its row of the opcode map, with the operand
ports of R52, whatever the ports hold. -/
def Obligations.CommandWordsDecodeAsMapped : Prop :=
  ∀ (w : Bool) (r g d n : Nat) (raw : Raw),
    decode ⟨0b0000#4, w, r, g, d, n, raw⟩ = .defaultFrame ∧
    decode ⟨0b0001#4, w, r, g, d, n, raw⟩ = .fillA w r g d ∧
    decode ⟨0b1001#4, w, r, g, d, n, raw⟩ = .fillB w r g d ∧
    decode ⟨0b0010#4, w, r, g, d, n, raw⟩ = .updcrc ∧
    decode ⟨0b0011#4, w, r, g, d, n, raw⟩ = .rdraw ∧
    decode ⟨0b0100#4, w, r, g, d, n, raw⟩ = .ldraw n raw ∧
    decode ⟨0b0101#4, w, r, g, d, n, raw⟩ = .parseA ∧
    decode ⟨0b1101#4, w, r, g, d, n, raw⟩ = .parseB ∧
    decode ⟨0b0110#4, w, r, g, d, n, raw⟩ = .reserved0110 ∧
    decode ⟨0b0111#4, w, r, g, d, n, raw⟩ = .reserved0111 ∧
    decode ⟨0b1110#4, w, r, g, d, n, raw⟩ = .reserved1110 ∧
    decode ⟨0b1111#4, w, r, g, d, n, raw⟩ = .reserved1111 ∧
    decode ⟨0b1000#4, w, r, g, d, n, raw⟩ = .reserved1000 ∧
    decode ⟨0b1010#4, w, r, g, d, n, raw⟩ = .reserved1010 ∧
    decode ⟨0b1011#4, w, r, g, d, n, raw⟩ = .reserved1011 ∧
    decode ⟨0b1100#4, w, r, g, d, n, raw⟩ = .reserved1100

/-- A command presented as one number (the model's numbering, log entry 12) is read back with every operand, at every
value its port carries and at every admitted width; a pseudo-command and a frame are read back as the command their words
are (`expand`, log entries 10 and 11). -/
def Obligations.EncodedCommandsDecodeBack : Prop :=
  ∀ (c : Config) (i : Instr), c.wf = true → wellFormed c i = true →
    (encode i).wf c = true ∧ decode (portsOfBits c (portsToBits c (encode i))) = expand i

/-- R52: a command depends on the operand ports listed for it and on no other: two presentations that agree on them are
the same command, and encoding drives every other port to 0. -/
def Obligations.UnlistedOperandPortsAreIgnored : Prop :=
  ∀ p : Ports,
    encode (decode p) =
      { cmdOp := p.cmdOp
        opIsWrite := if p.cmdOp = 0b0001#4 ∨ p.cmdOp = 0b1001#4 then p.opIsWrite else false
        opRank := if p.cmdOp = 0b0001#4 ∨ p.cmdOp = 0b1001#4 then p.opRank else 0
        opReg := if p.cmdOp = 0b0001#4 ∨ p.cmdOp = 0b1001#4 then p.opReg else 0
        opData := if p.cmdOp = 0b0001#4 ∨ p.cmdOp = 0b1001#4 then p.opData else 0
        opRawLen := if p.cmdOp = 0b0100#4 then p.opRawLen else 0
        opRaw := if p.cmdOp = 0b0100#4 then p.opRaw else 0#64 } ∧
    decode (encode (decode p)) = decode p

/-- R42, R43, R45 as data: a frame word of either layout is read back with every field, and no bit of a word with the
header `0xBEEF` is lost. That a word with another header is not read as a frame is the model's choice (log entry 11): the
spec checks no header anywhere (R51, R76), and `LDRAW` accepts the bytes. -/
def Obligations.FrameWordsDecodeBack : Prop :=
  (∀ (k : Half) (a w : Bool) (r : BitVec 2) (g : BitVec 12) (d : Half),
    decodeFrameA (frameWordA k ⟨a, w, r, g, d⟩) = .ok (.frameA k a w r g d) ∧
    decodeFrameB (frameWordB k ⟨a, w, r, g, d⟩) = .ok (.frameB k a w r g d)) ∧
  ∀ x : Raw,
    (x.extractLsb' 0 16 ≠ 0xBEEF#16 →
      decodeFrameA x = .error .headerNotMagic ∧ decodeFrameB x = .error .headerNotMagic) ∧
    (x.extractLsb' 0 16 = 0xBEEF#16 →
      (∃ k a w r g d, decodeFrameA x = .ok (.frameA k a w r g d) ∧ frameWordA k ⟨a, w, r, g, d⟩ = x) ∧
      ∃ k a w r g d, decodeFrameB x = .ok (.frameB k a w r g d) ∧ frameWordB k ⟨a, w, r, g, d⟩ = x)

/-- R43, R44, R45: where each field stands in the two payloads, as numbers. -/
def Obligations.PayloadLayoutsPlaceTheFields : Prop :=
  ∀ x : Fields,
    (payA x).toNat =
      x.acc.toNat * 2 ^ 31 + x.wr.toNat * 2 ^ 30 + x.rank.toNat * 2 ^ 28 + x.reg.toNat * 2 ^ 16 + x.data.toNat ∧
    (ctrl16 x).toNat = x.acc.toNat * 2 ^ 15 + x.wr.toNat * 2 ^ 14 + x.rank.toNat * 2 ^ 12 + x.reg.toNat ∧
    (payA x).extractLsb' 16 16 = ctrl16 x ∧ (payA x).extractLsb' 0 16 = x.data ∧
    seg0B x = ctrl16 x ∧ seg1B x = x.data

/-- R47: each operand is reduced to its field width by dropping the high bits; `WR` is `is_write`; no operand value is an
error. -/
def Obligations.OperandsAreMaskedToTheirFields : Prop :=
  ∀ (w : Bool) (r g d : Nat),
    (assemble w r g d).rank.toNat = r % 4 ∧ (assemble w r g d).reg.toNat = g % 4096 ∧
    (assemble w r g d).data.toNat = d % 65536 ∧ (assemble w r g d).wr = w ∧
    assemble w (r % 4) (g % 4096) (d % 65536) = assemble w r g d ∧
    ∀ s : State, ∃ t u, exec (.fillA w r g d) s = .next t ∧ t.rsps = Response.bare .ok :: s.rsps ∧
      exec (.fillB w r g d) s = .next u ∧ u.rsps = Response.bare .ok :: s.rsps

/-- R48: the access flag is 1 exactly when the masked data is not 0, in both layouts, whatever the other operands. -/
def Obligations.AccessFlagIsDerivedFromMaskedData : Prop :=
  ∀ (w : Bool) (r g d : Nat),
    ((assemble w r g d).acc = true ↔ d % 65536 ≠ 0) ∧
    ((payA (assemble w r g d)).getLsbD 31 = true ↔ d % 65536 ≠ 0) ∧
    ((seg0B (assemble w r g d)).getLsbD 15 = true ↔ d % 65536 ≠ 0)

/-- R77: the unpacker reads the stored bits; its register field is the low 12 bits under the mask. -/
def Obligations.UnpackReadsTheStoredFields : Prop :=
  (∀ (ctrl data : Half) (mask : BitVec 12),
    (unpack ctrl data mask).acc = ctrl.getLsbD 15 ∧ (unpack ctrl data mask).wr = ctrl.getLsbD 14 ∧
    (unpack ctrl data mask).rank.toNat = ctrl.toNat / 4096 % 4 ∧
    (unpack ctrl data 0xFFF#12).reg.toNat = ctrl.toNat % 4096 ∧
    (unpack ctrl data 0x003#12).reg.toNat = ctrl.toNat % 4 ∧
    (unpack ctrl data mask).reg = ctrl.extractLsb' 0 12 &&& mask ∧ (unpack ctrl data mask).data = data) ∧
  ∀ x : Fields, unpack (ctrl16 x) x.data 0xFFF#12 = x

/-! ## The frame buffer as memory -/

/-- R28: `MemRead` is the sum of the bytes weighted by powers of 256, and `MemWrite` puts byte `k` of the value at offset
`addr + k` and leaves every other offset alone. -/
def Obligations.MemReadAndMemWriteAreLittleEndian : Prop :=
  ∀ (f : FrameBuf) (addr n : Nat) (h : addr + n ≤ 8),
    (f.memRead addr n h).toNat = ∑ k ∈ Finset.range n, (f.get (addr + k)).toNat * 256 ^ k ∧
    ∀ v : BitVec (8 * n),
      (∀ k, k < n → ((f.memWrite addr n v h).get (addr + k)).toNat = v.toNat / 256 ^ k % 256) ∧
      (∀ i, i < 8 → i < addr ∨ addr + n ≤ i → (f.memWrite addr n v h).get i = f.get i) ∧
      (f.memWrite addr n v h).memRead addr n h = v

/-- R14, R29: the named views are the little-endian values of their bytes. -/
def Obligations.ViewsAreLittleEndian : Prop :=
  ∀ f : FrameBuf,
    f.hdr.toNat = f.b0.toNat + 256 * f.b1.toNat ∧
    f.pay.toNat = f.b2.toNat + 256 * f.b3.toNat + 65536 * f.b4.toNat + 16777216 * f.b5.toNat ∧
    f.seg0.toNat = f.b2.toNat + 256 * f.b3.toNat ∧ f.seg1.toNat = f.b4.toNat + 256 * f.b5.toNat ∧
    f.crcf.toNat = f.b6.toNat + 256 * f.b7.toNat ∧
    f.frame64 = (f.crcf ++ f.pay ++ f.hdr : BitVec 64) ∧ f.pay = (f.seg1 ++ f.seg0 : BitVec 32) ∧
    ∀ i, i < 8 → f.get i = f.frame64.extractLsb' (8 * i) 8

/-! ## The CRC generator -/

/-- R58, R61: `CRC.INIT` sets `CREG` to `0xFFFF` whatever it held and nothing else, so no computation depends on an earlier
one; `CRC.FINAL` is `CREG` inverted. The values are those the spec takes from general knowledge (R8; log entry 4). -/
def Obligations.CrcInitAndFinal : Prop :=
  ∀ s : State, crcInit s = { s with creg := 0xFFFF#16 } ∧ crcFinal s = s.creg ^^^ 0xFFFF#16 ∧
    crcFinal { s with creg := 0xA1BD#16 } = 0x5E42#16 ∧
    ∀ (s' : State) (bytes : List Byte),
      crcFinal (bytes.foldl crcByte (crcInit s)) = crcFinal (bytes.foldl crcByte (crcInit s'))

/-- R59, bit by bit: the feedback bit enters at positions 0, 5 and 12, every other bit moves up by one; `CRC.BIT` writes
nothing but `CREG`. -/
def Obligations.CrcBitIsTheShiftRegister : Prop :=
  ∀ (s : State) (d : Bool),
    (∀ j, j < 16 → (crcBit s d).creg.getLsbD j =
      if j = 0 then s.creg.getLsbD 15 ^^ d
      else if j = 5 ∨ j = 12 then s.creg.getLsbD (j - 1) ^^ (s.creg.getLsbD 15 ^^ d)
      else s.creg.getLsbD (j - 1)) ∧
    crcBit s d = { s with creg := (crcBit s d).creg } ∧
    (s.creg = 0xFFF8#16 → d = false → (crcBit s d).creg = 0xEFD1#16)

/-- R60: `CRC.BYTE` is eight `CRC.BIT` steps, the most significant bit of the byte first. -/
def Obligations.CrcByteIsEightBitsMsbFirst : Prop :=
  ∀ (s : State) (b : Byte),
    crcByte s b =
      crcBit (crcBit (crcBit (crcBit (crcBit (crcBit (crcBit (crcBit s (b.getLsbD 7)) (b.getLsbD 6)) (b.getLsbD 5))
        (b.getLsbD 4)) (b.getLsbD 3)) (b.getLsbD 2)) (b.getLsbD 1)) (b.getLsbD 0)

/-- R56, R66: one computation returns `CRC16` of its bytes whatever the state holds, writes neither `F` nor `VALID` nor
anything but `CREG`; `CRC16` is initialise, one byte step per byte in order, invert. What `CREG` holds afterwards is a free
value (log entry 5): nothing is said of it. -/
def Obligations.CrcComputationIsAFunctionOfItsBytes : Prop :=
  ∀ (s : State) (bytes : List Byte),
    (crcRun s bytes).1 = crc16 bytes ∧
    (crcRun s bytes).2 = { s with creg := (crcRun s bytes).2.creg, draws := (crcRun s bytes).2.draws } ∧
    crc16 bytes = crcFinal (bytes.foldl crcByte (crcInit s)) ∧
    crc16 [] = 0x0000#16 ∧
    crc16 [0x31#8, 0x32#8, 0x33#8, 0x34#8, 0x35#8, 0x36#8, 0x37#8, 0x38#8, 0x39#8] = 0xD64E#16

/-- R57: `FRAMECRC` is the CRC of the first `CRC_COVER` bytes, in increasing offset; the trailer is never an input, nor is
`F[5]` with `CRC_COVER = 5`. -/
def Obligations.FrameCrcCoversTheLeadingBytes : Prop :=
  (∀ s : State,
    (s.cfg.crcCover = .six → (frameCrc s).1 = crc16 [s.f.b0, s.f.b1, s.f.b2, s.f.b3, s.f.b4, s.f.b5]) ∧
    (s.cfg.crcCover = .five → (frameCrc s).1 = crc16 [s.f.b0, s.f.b1, s.f.b2, s.f.b3, s.f.b4]) ∧
    (frameCrc s).2.f = s.f ∧ (frameCrc s).2.valid = s.valid ∧
    ∀ x y, (frameCrc (s.setF { s.f with b6 := x, b7 := y })).1 = (frameCrc s).1) ∧
  ∀ c : Config,
    (c.crcCover = .six → (frameCrc (State.resetWith c)).1 = 0x5E42#16) ∧
    (c.crcCover = .five → (frameCrc (State.resetWith c)).1 = 0xE38D#16)

/-- R62: the byte-first form and the table form of `CRC.BYTE` give the register the serial form gives, for every register
value and every byte, and `TABLE[i]` is the register after `CREG <- 0; CRC.BYTE i`. -/
def Obligations.ByteAndTableFormsAgree : Prop :=
  (∀ (c : Half) (b : Byte), crcByteXorForm c b = crcByteStep c b ∧ crcByteTableForm c b = crcByteStep c b) ∧
  crcTable.length = 256 ∧ ∀ i, i < 256 → crcTable[i]? = some (crcByteStep 0x0000#16 (BitVec.ofNat 8 i))

/-- R63: after `n` bytes the register is the remainder of `I(x) * x^(8n) + M(x) * x^16` divided by
`G(x) = x^16 + x^12 + x^5 + 1` over the field of two elements: it has degree below 16 and differs from that polynomial by a
multiple of `G`. -/
def Obligations.RegisterIsThePolynomialRemainder : Prop :=
  ∀ bytes : List Byte,
    crc16 bytes = crcRegister 0xFFFF#16 bytes ^^^ 0xFFFF#16 ∧
    ∃ q : Polynomial (ZMod 2),
      (∑ i ∈ Finset.range (8 * bytes.length),
          if (messageBits bytes)[8 * bytes.length - 1 - i]? = some true then (Polynomial.X : Polynomial (ZMod 2)) ^ i else 0)
          * Polynomial.X ^ 16
        + (∑ i ∈ Finset.range 16, (Polynomial.X : Polynomial (ZMod 2)) ^ i) * Polynomial.X ^ (8 * bytes.length)
      = q * (Polynomial.X ^ 16 + Polynomial.X ^ 12 + Polynomial.X ^ 5 + 1)
        + ∑ i ∈ Finset.range 16,
            if (crcRegister 0xFFFF#16 bytes).getLsbD i = true then (Polynomial.X : Polynomial (ZMod 2)) ^ i else 0

/-- R64 law 1: affine linearity, for byte sequences of one length. -/
def Obligations.CrcIsAffine : Prop :=
  ∀ a b c : List Byte, a.length = b.length → b.length = c.length →
    crc16 a ^^^ crc16 b ^^^ crc16 c = crc16 (xorBytes (xorBytes a b) c) ∧
    crc16 (xorBytes a b) = crc16 a ^^^ crcRaw b

/-- R64 law 2: changing exactly one bit of a message of any length changes its CRC. -/
def Obligations.SingleBitChangesAreDetected : Prop :=
  ∀ (before j after : Nat) (m : List Byte), j < 8 → m.length = before + 1 + after →
    crcRaw (oneBitBytes before j after) ≠ 0x0000#16 ∧
    crc16 (xorBytes m (oneBitBytes before j after)) ≠ crc16 m

/-- R64 laws 3 and 4, for the six covered bytes: a one-bit change is never cancelled by changing one bit of the CRC, and
every two-bit change of the message changes the CRC. Bit `k` of the message is bit `k % 8` of byte `k / 8`. -/
def Obligations.DoubleBitChangesAreDetected : Prop :=
  ∀ m : List Byte, m.length = 6 → ∀ k, k < 48 →
    (∀ j, j < 16 → crc16 (xorBytes m (oneBitBytes (k / 8) (k % 8) (5 - k / 8))) ≠ crc16 m ^^^ (1#16 <<< j)) ∧
    ∀ l, l < 48 → l ≠ k →
      crc16 (xorBytes (xorBytes m (oneBitBytes (k / 8) (k % 8) (5 - k / 8))) (oneBitBytes (l / 8) (l % 8) (5 - l / 8)))
        ≠ crc16 m

/-! ## Reset, the step, and the host -/

/-- R25: the state after reset, for every admitted configuration and for this hardware (R9). Nothing is said of
`SHADOW`. -/
def Obligations.ResetStateHasTheTabulatedValues : Prop :=
  (∀ c : Config,
    (State.resetWith c).f.b0 = 0xEF#8 ∧ (State.resetWith c).f.b1 = 0xBE#8 ∧ (State.resetWith c).f.pay = 0#32 ∧
    (c.crcCover = .six → (State.resetWith c).f.b6 = 0x42#8 ∧ (State.resetWith c).f.b7 = 0x5E#8) ∧
    (c.crcCover = .five → (State.resetWith c).f.b6 = 0x8D#8 ∧ (State.resetWith c).f.b7 = 0xE3#8) ∧
    (State.resetWith c).valid = true ∧ (State.resetWith c).creg = 0xFFFF#16 ∧ (State.resetWith c).cfg = c) ∧
  State.reset.f.frame64 = 0x5E4200000000BEEF#64 ∧
  State.reset.cfg = ⟨.six, .overwrite, false, 32, 4⟩

/-- A step takes the oldest event the host presented off the queue and, if it is a command, carries out the command its
ports decode to. The queue is the model's own form of the command port (log entry 1). -/
def Obligations.StepRunsTheDecodedCommand : Prop :=
  (∀ (s : State) (p : Ports) (rest : List Event), s.events = .command p :: rest →
    step s = exec (decode p) { s with events := rest }) ∧
  (∀ (s : State) (nbits w : Nat), step (s.withFetchWord nbits w) = exec (decode (tablePorts nbits w)) s) ∧
  ∀ (c : Config) (i : Instr) (s : State), c.wf = true → wellFormed c i = true →
    step (s.present (encode i)) = exec (expand i) s ∧ exec (expand i) s = exec i s

/-- R97: `RESET` leaves `F`, `VALID` and `CREG` as R25 tabulates them and as `DEFAULT` leaves `F` and `VALID`; a command in
progress is abandoned and no response is given. -/
def Obligations.ResetEventRestoresTheResetFrame : Prop :=
  ∀ (s : State) (abandoned : Option Ports) (rest : List Event), s.events = .reset abandoned :: rest →
    ∃ t u, step s = .next t ∧ exec .defaultFrame s = .next u ∧ t.f = u.f ∧ t.valid = u.valid ∧
      t.f = (State.resetWith s.cfg).f ∧ t.valid = true ∧ t.creg = 0xFFFF#16 ∧ t.cfg = s.cfg ∧ t.rsps = s.rsps ∧
      t.events = rest

/-- With nothing presented the block is idle and keeps everything (60_exceptions.md section 8; log entry 8). -/
def Obligations.IdleStepKeepsEverything : Prop := ∀ s : State, s.events = [] → step s = .next s

/-- R91: a step always has a next state: no command hangs, faults or is refused, in any state. -/
def Obligations.EveryStepHasANextState : Prop :=
  (∀ s : State, ∃ t, step s = .next t) ∧ ∀ (i : Instr) (s : State), ∃ t, exec i s = .next t

/-- R37: the commands presented are carried out in order, each on the state left by the one before, and nothing else
happens: running as many steps as commands is the composition of their meanings. -/
def Obligations.CommandsRunInOrderEachOnTheLastState : Prop :=
  ∀ (ps : List Ports) (rest : List Event) (s : State), s.events = ps.map Event.command ++ rest →
    ∃ t, Sys2Proof.core.run ps.length s = .next t ∧ execAll (ps.map decode) { s with events := rest } = .next t ∧
      t.events = rest ∧ t.rsps.length = ps.length + s.rsps.length

/-- R17 as an invariant of every step, from every state that has it: `VALID` says exactly whether the trailer matches. -/
def Obligations.StepKeepsValidMeansMatching : Prop :=
  ∀ s t : State, ValidMeansMatching s → step s = .next t → ValidMeansMatching t

/-- R17, for `DECODE_COMMIT = SCRATCH`: `VALID` stays 1 over every step, and so does the whole of R17 together with it. -/
def Obligations.StepKeepsScratchAlwaysValid : Prop :=
  ∀ s t : State, ScratchMeansValid s → step s = .next t → ScratchMeansValid t ∧ t.cfg = s.cfg

/-- R17 holds right after reset, for every configuration. -/
def Obligations.ResetStateIsValidAndMatching : Prop :=
  ∀ c : Config, ValidMeansMatching (State.resetWith c) ∧ ScratchMeansValid (State.resetWith c)

/-- R18, R19, R109: `CREG`, `SHADOW` and the model's counter never reach anything the host can see. -/
def Obligations.HiddenStateIsNeverObserved : Prop :=
  ∀ s s' t t' : State, visible s = visible s' → step s = .next t → step s' = .next t' →
    visible t = visible t' ∧ observation t = observation t'

/-- R53, R82: a command gives exactly one response; with an error status every other field is zero; with `OK`, only
`RDRAW` gives `rsp_raw` and only `PARSE` gives fields. -/
def Obligations.EveryCommandAnswersOnce : Prop :=
  ∀ (i : Instr) (s : State), ∃ t r, exec i s = .next t ∧ t.rsps = r :: s.rsps ∧
    (r.status ≠ .ok → r = Response.bare r.status) ∧ (i ≠ .rdraw → r.raw = 0#64) ∧
    (i ≠ .parseA → i ≠ .parseB →
      r.isAccess = false ∧ r.isWrite = false ∧ r.rank = 0#2 ∧ r.reg = 0#12 ∧ r.data = 0#16)

/-- R20, R103: a response once given does not change, whatever happens later, and a step gives at most one more. -/
def Obligations.GivenResponsesNeverChange : Prop :=
  ∀ s t : State, step s = .next t →
    t.rsps.drop (t.rsps.length - s.rsps.length) = s.rsps ∧ s.rsps.length ≤ t.rsps.length ∧
      t.rsps.length ≤ s.rsps.length + 1

/-! ## The encoder -/

/-- R68: `DEFAULT` from any state leaves `EF BE 00 00 00 00` and the constant CRC, `VALID = 1`, status `OK`. -/
def Obligations.DefaultWritesTheDefaultFrame : Prop :=
  ∀ s : State, ∃ t, exec .defaultFrame s = .next t ∧
    t.f.b0 = 0xEF#8 ∧ t.f.b1 = 0xBE#8 ∧ t.f.b2 = 0#8 ∧ t.f.b3 = 0#8 ∧ t.f.b4 = 0#8 ∧ t.f.b5 = 0#8 ∧
    (s.cfg.crcCover = .six → t.f.b6 = 0x42#8 ∧ t.f.b7 = 0x5E#8) ∧
    (s.cfg.crcCover = .five → t.f.b6 = 0x8D#8 ∧ t.f.b7 = 0xE3#8) ∧
    t.valid = true ∧ t.rsps = Response.bare .ok :: s.rsps ∧ KeepsSurroundings s t

/-- R69: `FILL.A` for every operand value and every state: the four payload bytes of Variant A, the header left as it is,
the trailer the CRC over the bytes after the write, little-endian, `VALID = 1`, status `OK`. -/
def Obligations.FillAPacksVariantA : Prop :=
  ∀ (w : Bool) (r g d : Nat) (s : State), ∃ t, exec (.fillA w r g d) s = .next t ∧
    t.f.b0 = s.f.b0 ∧ t.f.b1 = s.f.b1 ∧
    t.f.pay.toNat = (if d % 65536 ≠ 0 then 1 else 0) * 2 ^ 31 + w.toNat * 2 ^ 30 + r % 4 * 2 ^ 28 + g % 4096 * 2 ^ 16 +
      d % 65536 ∧
    (t.f.b7 ++ t.f.b6 : BitVec 16) = crc16 (t.f.toList.take s.cfg.crcCover.bytes) ∧
    t.valid = true ∧ t.rsps = Response.bare .ok :: s.rsps ∧ KeepsSurroundings s t

/-- R70: `FILL.B`, the two segments of Variant B, otherwise as `FILL.A`. -/
def Obligations.FillBPacksVariantB : Prop :=
  ∀ (w : Bool) (r g d : Nat) (s : State), ∃ t, exec (.fillB w r g d) s = .next t ∧
    t.f.b0 = s.f.b0 ∧ t.f.b1 = s.f.b1 ∧
    t.f.seg0.toNat = (if d % 65536 ≠ 0 then 1 else 0) * 2 ^ 15 + w.toNat * 2 ^ 14 + r % 4 * 2 ^ 12 + g % 4096 ∧
    t.f.seg1.toNat = d % 65536 ∧
    (t.f.b7 ++ t.f.b6 : BitVec 16) = crc16 (t.f.toList.take s.cfg.crcCover.bytes) ∧
    t.valid = true ∧ t.rsps = Response.bare .ok :: s.rsps ∧ KeepsSurroundings s t

/-- R71: `FILLE.A` and `FILLE.B` are `FILL` with `data = 0`, issued on the same ports: the access flag is never set and the
data field is 0. -/
def Obligations.FilleIsFillWithZeroData : Prop :=
  ∀ (w : Bool) (r g : Nat) (s : State),
    encode (.filleA w r g) = encode (.fillA w r g 0) ∧ encode (.filleB w r g) = encode (.fillB w r g 0) ∧
    (∃ t, exec (.filleA w r g) s = .next t ∧ exec (.fillA w r g 0) s = .next t ∧
      t.f.b0 = s.f.b0 ∧ t.f.b1 = s.f.b1 ∧
      t.f.pay.toNat = w.toNat * 2 ^ 30 + r % 4 * 2 ^ 28 + g % 4096 * 2 ^ 16 ∧
      (t.f.b7 ++ t.f.b6 : BitVec 16) = crc16 (t.f.toList.take s.cfg.crcCover.bytes) ∧
      t.valid = true ∧ t.rsps = Response.bare .ok :: s.rsps ∧ KeepsSurroundings s t) ∧
    ∃ t, exec (.filleB w r g) s = .next t ∧ exec (.fillB w r g 0) s = .next t ∧
      t.f.b0 = s.f.b0 ∧ t.f.b1 = s.f.b1 ∧
      t.f.seg0.toNat = w.toNat * 2 ^ 14 + r % 4 * 2 ^ 12 + g % 4096 ∧ t.f.seg1 = 0#16 ∧
      (t.f.b7 ++ t.f.b6 : BitVec 16) = crc16 (t.f.toList.take s.cfg.crcCover.bytes) ∧
      t.valid = true ∧ t.rsps = Response.bare .ok :: s.rsps ∧ KeepsSurroundings s t

/-- R72: `UPDCRC` writes the trailer and `VALID` only; where the trailer already matches (R17) it leaves `F` as it is. -/
def Obligations.UpdcrcStampsTheTrailer : Prop :=
  ∀ s : State, ∃ t, exec .updcrc s = .next t ∧
    (∀ i, i < 6 → t.f.get i = s.f.get i) ∧
    (t.f.b7 ++ t.f.b6 : BitVec 16) = crc16 (s.f.toList.take s.cfg.crcCover.bytes) ∧
    t.valid = true ∧ t.rsps = Response.bare .ok :: s.rsps ∧ KeepsSurroundings s t ∧
    (ValidMeansMatching s → s.valid = true → t.f = s.f)

/-- R73: `RDRAW` answers with the eight bytes, byte `i` in bits `8i+7 : 8i`, while `VALID = 1`, with `CrcMismatch` and
zeros otherwise, and changes nothing; under `SCRATCH`, where R17 keeps `VALID` at 1, it never fails. -/
def Obligations.RdrawCopiesTheFrameOut : Prop :=
  ∀ s : State,
    (s.valid = true → ∃ x : Raw,
      exec .rdraw s = .next { s with rsps := ⟨.ok, x, false, false, 0#2, 0#12, 0#16⟩ :: s.rsps } ∧
      ∀ i, i < 8 → x.extractLsb' (8 * i) 8 = s.f.get i) ∧
    (s.valid = false →
      exec .rdraw s = .next { s with rsps := ⟨.crcMismatch, 0#64, false, false, 0#2, 0#12, 0#16⟩ :: s.rsps }) ∧
    (ScratchMeansValid s → s.cfg.decodeCommit = .scratch → ∃ x : Raw,
      exec .rdraw s = .next { s with rsps := ⟨.ok, x, false, false, 0#2, 0#12, 0#16⟩ :: s.rsps })

/-- R74 law 3, R46: from one state, `FILL.A` and `FILL.B` with the same operands leave payloads that are half-swapped
images of each other, equal exactly when the control word equals the data. -/
def Obligations.TheTwoLayoutsAreHalfSwapped : Prop :=
  ∀ (w : Bool) (r g d : Nat) (s : State), ∃ t u,
    exec (.fillA w r g d) s = .next t ∧ exec (.fillB w r g d) s = .next u ∧
    u.f.pay = (t.f.pay.extractLsb' 0 16 ++ t.f.pay.extractLsb' 16 16 : BitVec 32) ∧
    (u.f = t.f ↔ t.f.pay.extractLsb' 16 16 = t.f.pay.extractLsb' 0 16)

/-- R74 laws 2, 4 and 5: what `FILL` and `DEFAULT` leave in `F` and `VALID` depends on the masked operands and on the
header bytes alone (for `DEFAULT` on nothing), and with the canonical header `DEFAULT` is `FILL 0, 0, 0, 0`. -/
def Obligations.EncoderResultsDependOnOperandsAndHeader : Prop :=
  (∀ (w : Bool) (r g d : Nat) (s s' : State), s.cfg = s'.cfg → s.f.hdr = s'.f.hdr → ∃ t t' u u',
    exec (.fillA w r g d) s = .next t ∧ exec (.fillA w (r % 4) (g % 4096) (d % 65536)) s' = .next t' ∧
    t.f = t'.f ∧ t.valid = t'.valid ∧
    exec (.fillB w r g d) s = .next u ∧ exec (.fillB w (r % 4) (g % 4096) (d % 65536)) s' = .next u' ∧
    u.f = u'.f ∧ u.valid = u'.valid) ∧
  ∀ s s' : State, s.cfg = s'.cfg → s'.f.hdr = 0xBEEF#16 → ∃ t t' u,
    exec .defaultFrame s = .next t ∧ exec (.fillA false 0 0 0) s' = .next t' ∧ exec (.fillB false 0 0 0) s' = .next u ∧
    t.f = t'.f ∧ t.valid = t'.valid ∧ t.f = u.f ∧ t.valid = u.valid

/-! ## The decoder -/

/-- R76, R85: `LDRAW`, every case. A wrong length answers `BadLength` and changes nothing. With eight bytes and a matching
trailer the bytes are in `F` and the status is `OK`, under both settings, whatever the header, the payload and `VALID`. With
a trailer that differs the status is `CrcMismatch`; `OVERWRITE` leaves the bytes in `F` with `VALID = 0`, `SCRATCH` leaves
`F` and `VALID` as they were. `SHADOW` takes the bytes under `SCRATCH` only. -/
def Obligations.LdrawVerifiesAndCommits : Prop :=
  ∀ (n : Nat) (raw : Raw) (s : State),
    (n ≠ 8 → exec (.ldraw n raw) s = .next { s with rsps := Response.bare .badLength :: s.rsps }) ∧
    (n = 8 → RawMatches s.cfg raw → ∃ t, exec (.ldraw n raw) s = .next t ∧
      (∀ i, i < 8 → t.f.get i = raw.extractLsb' (8 * i) 8) ∧ t.valid = true ∧
      t.rsps = Response.bare .ok :: s.rsps ∧ t.cfg = s.cfg ∧ t.events = s.events ∧
      (s.cfg.decodeCommit = .overwrite → t.shadow = s.shadow) ∧ (s.cfg.decodeCommit = .scratch → t.shadow = t.f)) ∧
    (n = 8 → ¬ RawMatches s.cfg raw → ∃ t, exec (.ldraw n raw) s = .next t ∧
      t.rsps = Response.bare .crcMismatch :: s.rsps ∧ t.cfg = s.cfg ∧ t.events = s.events ∧
      (s.cfg.decodeCommit = .overwrite →
        (∀ i, i < 8 → t.f.get i = raw.extractLsb' (8 * i) 8) ∧ t.valid = false ∧ t.shadow = s.shadow) ∧
      (s.cfg.decodeCommit = .scratch →
        t.f = s.f ∧ t.valid = s.valid ∧ ∀ i, i < 8 → t.shadow.get i = raw.extractLsb' (8 * i) 8))

/-- The rows FRAME.A and FRAME.B of the opcode table: a frame of either layout received from the wire is an `LDRAW` of its
eight bytes. That a frame is carried out so is the model's choice (log entry 11); the result is R76's. -/
def Obligations.ReceivedFramesAreLoaded : Prop :=
  ∀ (k : Half) (a w : Bool) (r : BitVec 2) (g : BitVec 12) (d : Half) (s : State),
    (RawMatches s.cfg (frameWordA k ⟨a, w, r, g, d⟩) → ∃ t, exec (.frameA k a w r g d) s = .next t ∧
      t.f.hdr = 0xBEEF#16 ∧ t.f.pay = payA ⟨a, w, r, g, d⟩ ∧ t.f.crcf = k ∧ t.valid = true ∧
      t.rsps = Response.bare .ok :: s.rsps ∧ t.cfg = s.cfg ∧ t.events = s.events) ∧
    (¬ RawMatches s.cfg (frameWordA k ⟨a, w, r, g, d⟩) → ∃ t, exec (.frameA k a w r g d) s = .next t ∧
      t.rsps = Response.bare .crcMismatch :: s.rsps ∧ t.cfg = s.cfg ∧ t.events = s.events) ∧
    (RawMatches s.cfg (frameWordB k ⟨a, w, r, g, d⟩) → ∃ t, exec (.frameB k a w r g d) s = .next t ∧
      t.f.hdr = 0xBEEF#16 ∧ t.f.seg0 = ctrl16 ⟨a, w, r, g, d⟩ ∧ t.f.seg1 = d ∧ t.f.crcf = k ∧ t.valid = true ∧
      t.rsps = Response.bare .ok :: s.rsps ∧ t.cfg = s.cfg ∧ t.events = s.events) ∧
    (¬ RawMatches s.cfg (frameWordB k ⟨a, w, r, g, d⟩) → ∃ t, exec (.frameB k a w r g d) s = .next t ∧
      t.rsps = Response.bare .crcMismatch :: s.rsps ∧ t.cfg = s.cfg ∧ t.events = s.events)

/-- R78: `PARSE.A`: the five fields of the Variant A payload, the register under the rank mask unless
`REG_READBACK_FIX = 1`; `CrcMismatch` and zeros while `VALID = 0`; nothing changes. -/
def Obligations.ParseAReadsVariantA : Prop :=
  ∀ s : State,
    (s.valid = true → ∃ x : Response, exec .parseA s = .next { s with rsps := x :: s.rsps } ∧
      x.status = .ok ∧ x.raw = 0#64 ∧ x.isAccess = s.f.pay.getLsbD 31 ∧ x.isWrite = s.f.pay.getLsbD 30 ∧
      x.rank.toNat = s.f.pay.toNat / 2 ^ 28 % 4 ∧ x.data.toNat = s.f.pay.toNat % 65536 ∧
      (s.cfg.regReadbackFix = false → x.reg.toNat = s.f.pay.toNat / 2 ^ 16 % 4) ∧
      (s.cfg.regReadbackFix = true → x.reg.toNat = s.f.pay.toNat / 2 ^ 16 % 4096)) ∧
    (s.valid = false → exec .parseA s = .next { s with rsps := Response.bare .crcMismatch :: s.rsps })

/-- R79: `PARSE.B`: the five fields of the Variant B segments, the register always under the 12-bit mask; `CrcMismatch` and
zeros while `VALID = 0`; nothing changes. -/
def Obligations.ParseBReadsVariantB : Prop :=
  ∀ s : State,
    (s.valid = true → ∃ x : Response, exec .parseB s = .next { s with rsps := x :: s.rsps } ∧
      x.status = .ok ∧ x.raw = 0#64 ∧ x.isAccess = s.f.seg0.getLsbD 15 ∧ x.isWrite = s.f.seg0.getLsbD 14 ∧
      x.rank.toNat = s.f.seg0.toNat / 4096 % 4 ∧ x.reg.toNat = s.f.seg0.toNat % 4096 ∧ x.data = s.f.seg1) ∧
    (s.valid = false → exec .parseB s = .next { s with rsps := Response.bare .crcMismatch :: s.rsps })

/-- R80: what `FILL` packs, `PARSE` of the same layout gives back, from any state and for any operands, and so it does on
another instance with the same `CRC_COVER` after `RDRAW` and `LDRAW`. -/
def Obligations.FillThenParseGivesTheFieldsBack : Prop :=
  ∀ (w : Bool) (r g d : Nat) (s s' : State), s'.cfg.crcCover = s.cfg.crcCover →
    (∃ t u, exec (.fillA w r g d) s = .next t ∧ exec .parseA t = .next u ∧
      u.rsps.head? = some ⟨.ok, 0#64, decide (d % 65536 ≠ 0), w, BitVec.ofNat 2 r,
        BitVec.ofNat 12 (if s.cfg.regReadbackFix then g else g % 4), BitVec.ofNat 16 d⟩ ∧
      ∃ v x y z, exec .rdraw t = .next v ∧ v.rsps.head? = some x ∧ exec (.ldraw 8 x.raw) s' = .next y ∧
        exec .parseA y = .next z ∧
        z.rsps.head? = some ⟨.ok, 0#64, decide (d % 65536 ≠ 0), w, BitVec.ofNat 2 r,
          BitVec.ofNat 12 (if s'.cfg.regReadbackFix then g else g % 4), BitVec.ofNat 16 d⟩) ∧
    (∃ t u, exec (.fillB w r g d) s = .next t ∧ exec .parseB t = .next u ∧
      u.rsps.head? =
        some ⟨.ok, 0#64, decide (d % 65536 ≠ 0), w, BitVec.ofNat 2 r, BitVec.ofNat 12 g, BitVec.ofNat 16 d⟩ ∧
      ∃ v x y z, exec .rdraw t = .next v ∧ v.rsps.head? = some x ∧ exec (.ldraw 8 x.raw) s' = .next y ∧
        exec .parseB y = .next z ∧
        z.rsps.head? =
          some ⟨.ok, 0#64, decide (d % 65536 ≠ 0), w, BitVec.ofNat 2 r, BitVec.ofNat 12 g, BitVec.ofNat 16 d⟩)

/-- R81: with `CRC_COVER = 6`, changing exactly one of the 64 bits of a buffer whose trailer matches makes `LDRAW` answer
`CrcMismatch`, from every state; with `CRC_COVER = 5` this fails for exactly the eight bits of byte 5. -/
def Obligations.OneFlippedBitIsCaught : Prop :=
  ∀ (raw : Raw) (k : Nat) (s : State), k < 64 → RawMatches s.cfg raw →
    ∃ t, exec (.ldraw 8 (raw ^^^ (1#64 <<< k))) s = .next t ∧
      (s.cfg.crcCover = .six → t.rsps = Response.bare .crcMismatch :: s.rsps) ∧
      (s.cfg.crcCover = .five → k < 40 ∨ 48 ≤ k → t.rsps = Response.bare .crcMismatch :: s.rsps) ∧
      (s.cfg.crcCover = .five → 40 ≤ k → k < 48 → t.rsps = Response.bare .ok :: s.rsps ∧ t.valid = true)

/-! ## Errors and rules over all commands -/

/-- R86: each of the eight reserved command words, whatever the operand ports and the state hold, answers `BadCommand` and
changes nothing; the words are those of R51, in the order of the opcode table. -/
def Obligations.ReservedWordsAnswerBadCommand : Prop :=
  (∀ p : Ports, p.cmdOp ∈ reservedWords → decode p ∈ reservedInstrs) ∧
  ∀ s : State,
    exec .reserved0110 s = .next { s with rsps := ⟨.badCommand, 0#64, false, false, 0#2, 0#12, 0#16⟩ :: s.rsps } ∧
    exec .reserved0111 s = .next { s with rsps := ⟨.badCommand, 0#64, false, false, 0#2, 0#12, 0#16⟩ :: s.rsps } ∧
    exec .reserved1110 s = .next { s with rsps := ⟨.badCommand, 0#64, false, false, 0#2, 0#12, 0#16⟩ :: s.rsps } ∧
    exec .reserved1111 s = .next { s with rsps := ⟨.badCommand, 0#64, false, false, 0#2, 0#12, 0#16⟩ :: s.rsps } ∧
    exec .reserved1000 s = .next { s with rsps := ⟨.badCommand, 0#64, false, false, 0#2, 0#12, 0#16⟩ :: s.rsps } ∧
    exec .reserved1010 s = .next { s with rsps := ⟨.badCommand, 0#64, false, false, 0#2, 0#12, 0#16⟩ :: s.rsps } ∧
    exec .reserved1011 s = .next { s with rsps := ⟨.badCommand, 0#64, false, false, 0#2, 0#12, 0#16⟩ :: s.rsps } ∧
    exec .reserved1100 s = .next { s with rsps := ⟨.badCommand, 0#64, false, false, 0#2, 0#12, 0#16⟩ :: s.rsps }

/-- R84, R85, R86, R89: when a presented command answers with which error: `BadCommand` exactly for a reserved word,
`BadLength` exactly for `LDRAW` with a length other than 8, `CrcMismatch` exactly for `LDRAW` of eight bytes whose trailer
differs and for a read while `VALID = 0`. So one error at most, in that order of precedence. -/
def Obligations.WhichErrorACommandReports : Prop :=
  ∀ (p : Ports) (s : State), ∃ t r, exec (decode p) s = .next t ∧ t.rsps = r :: s.rsps ∧
    (r.status = .badCommand ↔ p.cmdOp ∈ reservedWords) ∧
    (r.status = .badLength ↔ p.cmdOp = 0b0100#4 ∧ p.opRawLen ≠ 8) ∧
    (r.status = .crcMismatch ↔
      (p.cmdOp = 0b0100#4 ∧ p.opRawLen = 8 ∧ ¬ RawMatches s.cfg p.opRaw) ∨
      (s.valid = false ∧ (p.cmdOp = 0b0011#4 ∨ p.cmdOp = 0b0101#4 ∨ p.cmdOp = 0b1101#4)))

/-- R83: the numeric codes of the four statuses, all different. -/
def Obligations.StatusCodesAreAsTabulated : Prop :=
  (statusCode .ok).toNat = 0 ∧ (statusCode .crcMismatch).toNat = 1 ∧ (statusCode .badLength).toNat = 2 ∧
    (statusCode .badCommand).toNat = 3 ∧ ∀ a b, statusCode a = statusCode b → a = b

/-- R16: what each command does to `VALID`: `DEFAULT`, `FILL` and `UPDCRC` set it, `LDRAW` of eight bytes sets it when the
trailer matches and clears it when it differs under `OVERWRITE`, and nothing else writes it. -/
def Obligations.ValidIsWrittenOnlyAsListed : Prop :=
  ∀ (p : Ports) (s : State), ∃ t, exec (decode p) s = .next t ∧ t.frameValid = t.valid ∧
    t.valid =
      if p.cmdOp = 0b0000#4 ∨ p.cmdOp = 0b0001#4 ∨ p.cmdOp = 0b1001#4 ∨ p.cmdOp = 0b0010#4 then true
      else if p.cmdOp = 0b0100#4 ∧ p.opRawLen = 8 then
        if RawMatches s.cfg p.opRaw then true
        else if s.cfg.decodeCommit = .overwrite then false else s.valid
      else s.valid

/-- R15: the bytes each command may change: the reads and the reserved words change none, and only `DEFAULT` and `LDRAW`
change the header, `UPDCRC` changes the trailer alone. -/
def Obligations.BytesEachCommandMayChange : Prop :=
  ∀ (p : Ports) (s : State), ∃ t, exec (decode p) s = .next t ∧
    (p.cmdOp ≠ 0b0000#4 → p.cmdOp ≠ 0b0100#4 → t.f.get 0 = s.f.get 0 ∧ t.f.get 1 = s.f.get 1) ∧
    (p.cmdOp = 0b0010#4 → ∀ i, i < 6 → t.f.get i = s.f.get i) ∧
    (p.cmdOp = 0b0011#4 ∨ p.cmdOp = 0b0101#4 ∨ p.cmdOp = 0b1101#4 ∨ p.cmdOp ∈ reservedWords →
      t = { s with rsps := t.rsps }) ∧
    t.cfg = s.cfg ∧ t.events = s.events

/-- R90: from `VALID = 0`, `DEFAULT`, `FILL`, `UPDCRC`, a matching `LDRAW` and `RESET` each recover, and a second failing
`LDRAW` replaces the bad bytes and leaves `VALID = 0`. -/
def Obligations.RecoveryFromRejectedBytes : Prop :=
  ∀ s : State, s.valid = false →
    (∃ t, exec .defaultFrame s = .next t ∧ t.valid = true ∧ t.f.hdr = 0xBEEF#16) ∧
    (∀ w r g d, ∃ t, exec (.fillA w r g d) s = .next t ∧ t.valid = true ∧ t.f.hdr = s.f.hdr) ∧
    (∀ w r g d, ∃ t, exec (.fillB w r g d) s = .next t ∧ t.valid = true ∧ t.f.hdr = s.f.hdr) ∧
    (∃ t, exec .updcrc s = .next t ∧ t.valid = true ∧ t.f.hdr = s.f.hdr ∧ t.f.pay = s.f.pay) ∧
    (∀ raw, RawMatches s.cfg raw → ∃ t, exec (.ldraw 8 raw) s = .next t ∧ t.valid = true) ∧
    (∀ raw, ¬ RawMatches s.cfg raw → s.cfg.decodeCommit = .overwrite →
      ∃ t, exec (.ldraw 8 raw) s = .next t ∧ t.valid = false ∧ t.f.frame64 = raw) ∧
    ∀ a, ∃ t, step (s.setEvents (.reset a :: s.events)) = .next t ∧ t.valid = true

/-- 20_memory.md section 4: issuing `DEFAULT`, `UPDCRC`, `FILL` with the same operands, or `LDRAW` with the same buffer
twice in a row leaves the same `F` and `VALID` as issuing it once, and a read repeated gives the same response. -/
def Obligations.RepeatingACommandChangesNothingMore : Prop :=
  ∀ (i : Instr) (s : State), ∃ t u, exec i s = .next t ∧ exec i t = .next u ∧ u.f = t.f ∧ u.valid = t.valid ∧
    u.rsps.head? = t.rsps.head?

/-- 60_exceptions.md R84 (b), 20_memory.md R36: while `VALID = 0` a read gives nothing of the bytes in the buffer away. -/
def Obligations.RejectedBytesCannotBeRead : Prop :=
  ∀ (i : Instr) (s : State) (g : FrameBuf), i = .rdraw ∨ i = .parseA ∨ i = .parseB → s.valid = false →
    ∃ t t', exec i s = .next t ∧ exec i { s with f := g } = .next t' ∧ t.rsps = t'.rsps ∧ t.f = s.f ∧ t'.f = g

/-- Sanity: a few command words and one frame word of the opcode table, `cmd_op` and the frame's bits numbered as the table
numbers them. The model's choices: the operand ports stand above `cmd_op`, and a table word of 64 bits is a frame (log entry
12); a 64-bit word is read as `FRAME.A`, and one with another header than `0xBEEF` as no frame (log entry 11). -/
def Obligations.TableWordsDecodeToTheirRows : Prop :=
  decodeTableWord 8 0x0 = some .defaultFrame ∧ decodeTableWord 8 0x1 = some (.fillA false 0 0 0) ∧
  decodeTableWord 8 0x4 = some (.ldraw 0 0#64) ∧ decodeTableWord 8 0xD = some .parseB ∧
  decodeTableWord 8 0xC = some .reserved1100 ∧
  decodeTableWord 64 0xDA99AABC1234BEEF = some (.frameA 0xDA99#16 true false 2#2 0xABC#12 0x1234#16) ∧
  decodeTableWord 64 0xDA99AABC1234EFBE = none
end

