-- ==== Sys2Proof/Laws/Frame.lean ====
section
/-! SUPPORT. The frame buffer: `MemRead` and `MemWrite` on the accesses the rules make, as the bytes they move
(spec/20_memory.md R28, R29), and how they combine. -/

namespace Sys2Proof.Machine.FrameBuf

theorem ext_bytes {f g : FrameBuf} (h0 : f.b0 = g.b0) (h1 : f.b1 = g.b1) (h2 : f.b2 = g.b2) (h3 : f.b3 = g.b3)
    (h4 : f.b4 = g.b4) (h5 : f.b5 = g.b5) (h6 : f.b6 = g.b6) (h7 : f.b7 = g.b7) : f = g := by
  cases f; cases g; simp_all

/-- Two buffers are equal when every offset reads the same. -/
theorem ext_get {f g : FrameBuf} (h : ∀ i, i < 8 → f.get i = g.get i) : f = g :=
  ext_bytes (h 0 (by decide)) (h 1 (by decide)) (h 2 (by decide)) (h 3 (by decide)) (h 4 (by decide))
    (h 5 (by decide)) (h 6 (by decide)) (h 7 (by decide))

theorem get_set_same (f : FrameBuf) {i : Nat} (h : i < 8) (v : Byte) : (f.set i v).get i = v := by
  rcases i with _ | _ | _ | _ | _ | _ | _ | _ | i
  all_goals first | rfl | omega

theorem get_set_other (f : FrameBuf) {i j : Nat} (h : j ≠ i) (v : Byte) : (f.set i v).get j = f.get j := by
  rcases i with _ | _ | _ | _ | _ | _ | _ | _ | i <;> rcases j with _ | _ | _ | _ | _ | _ | _ | _ | j <;>
    first | rfl | exact absurd rfl h

/-- `MemWrite(addr, 2, v)` byte by byte. -/
theorem memWrite_two (f : FrameBuf) (addr : Nat) (v : BitVec 16) (h : addr + 2 ≤ 8) :
    f.memWrite addr 2 v h = (f.set addr (v.extractLsb' 0 8)).set (addr + 1) (v.extractLsb' 8 8) := rfl

/-- `MemWrite(addr, 4, v)` byte by byte. -/
theorem memWrite_four (f : FrameBuf) (addr : Nat) (v : BitVec 32) (h : addr + 4 ≤ 8) :
    f.memWrite addr 4 v h =
      (((f.set addr (v.extractLsb' 0 8)).set (addr + 1) (v.extractLsb' 8 8)).set (addr + 2)
        (v.extractLsb' 16 8)).set (addr + 3) (v.extractLsb' 24 8) := rfl

/-- The trailer write, byte by byte. -/
theorem memWrite_trailer (f : FrameBuf) (v : BitVec 16) :
    f.memWrite 6 2 v = { f with b6 := v.extractLsb' 0 8, b7 := v.extractLsb' 8 8 } := memWrite_two f 6 v _

/-- The header write, byte by byte. -/
theorem memWrite_header (f : FrameBuf) (v : BitVec 16) :
    f.memWrite 0 2 v = { f with b0 := v.extractLsb' 0 8, b1 := v.extractLsb' 8 8 } := memWrite_two f 0 v _

/-- The write of `SEG0`, byte by byte. -/
theorem memWrite_seg0 (f : FrameBuf) (v : BitVec 16) :
    f.memWrite 2 2 v = { f with b2 := v.extractLsb' 0 8, b3 := v.extractLsb' 8 8 } := memWrite_two f 2 v _

/-- The write of `SEG1`, byte by byte. -/
theorem memWrite_seg1 (f : FrameBuf) (v : BitVec 16) :
    f.memWrite 4 2 v = { f with b4 := v.extractLsb' 0 8, b5 := v.extractLsb' 8 8 } := memWrite_two f 4 v _

/-- The payload write, byte by byte. -/
theorem memWrite_payload (f : FrameBuf) (v : BitVec 32) :
    f.memWrite 2 4 v =
      { f with b2 := v.extractLsb' 0 8, b3 := v.extractLsb' 8 8, b4 := v.extractLsb' 16 8, b5 := v.extractLsb' 24 8 } :=
  memWrite_four f 2 v _

/-- The value of a concatenation. -/
theorem append_toNat {m n : Nat} (a : BitVec m) (b : BitVec n) : (a ++ b).toNat = a.toNat * 2 ^ n + b.toNat := by
  rw [BitVec.toNat_append, Nat.shiftLeft_eq, Nat.mul_comm _ (2 ^ n), ← Nat.two_pow_add_eq_or_of_lt b.isLt]

/-- The value of one more byte above `n` bytes (R28: the bytes weighted by powers of 256). -/
theorem bytesFrom_succ_toNat (f : FrameBuf) (addr n : Nat) :
    (f.bytesFrom addr (n + 1)).toNat = (f.bytesFrom addr n).toNat + (f.get (addr + n)).toNat * 256 ^ n := by
  rw [bytesFrom, BitVec.toNat_cast, append_toNat, Nat.pow_mul, Nat.add_comm]

/-- `MemRead(addr, 2)` is the upper byte before the lower byte. -/
theorem memRead_two (f : FrameBuf) (addr : Nat) (h : addr + 2 ≤ 8) :
    f.memRead addr 2 h = (f.get (addr + 1) ++ f.get addr : BitVec 16) := by
  apply BitVec.eq_of_toNat_eq
  show (f.bytesFrom addr 2).toNat = _
  rw [bytesFrom_succ_toNat, bytesFrom_succ_toNat, append_toNat]
  show 0 + _ + _ = _
  simp only [Nat.add_zero]
  omega

/-- `MemRead(addr, 4)` is its two halves, the higher offset above the lower. -/
theorem memRead_four (f : FrameBuf) (addr : Nat) (h : addr + 4 ≤ 8) :
    f.memRead addr 4 h =
      (f.memRead (addr + 2) 2 (by omega) ++ f.memRead addr 2 (by omega) : BitVec 32) := by
  apply BitVec.eq_of_toNat_eq
  rw [append_toNat]
  show (f.bytesFrom addr 4).toNat = (f.bytesFrom (addr + 2) 2).toNat * 2 ^ 16 + (f.bytesFrom addr 2).toNat
  simp only [bytesFrom_succ_toNat]
  show 0 + _ + _ + _ + _ = (0 + _ + _) * _ + (0 + _ + _)
  simp only [Nat.add_zero, Nat.add_assoc, Nat.reduceAdd]
  omega

/-- `MemRead(0, 8)` is its two halves, the higher offset above the lower. -/
theorem memRead_eight (f : FrameBuf) : f.memRead 0 8 = (f.memRead 4 4 ++ f.memRead 0 4 : BitVec 64) := by
  apply BitVec.eq_of_toNat_eq
  rw [append_toNat]
  show (f.bytesFrom 0 8).toNat = (f.bytesFrom 4 4).toNat * 2 ^ 32 + (f.bytesFrom 0 4).toNat
  simp only [bytesFrom_succ_toNat]
  show 0 + _ + _ + _ + _ + _ + _ + _ + _ = (0 + _ + _ + _ + _) * _ + (0 + _ + _ + _ + _)
  simp only [Nat.reduceAdd]
  omega

theorem hdr_eq (f : FrameBuf) : f.hdr = (f.b1 ++ f.b0 : BitVec 16) := memRead_two f 0 _
theorem seg0_eq (f : FrameBuf) : f.seg0 = (f.b3 ++ f.b2 : BitVec 16) := memRead_two f 2 _
theorem seg1_eq (f : FrameBuf) : f.seg1 = (f.b5 ++ f.b4 : BitVec 16) := memRead_two f 4 _
theorem crcf_eq (f : FrameBuf) : f.crcf = (f.b7 ++ f.b6 : BitVec 16) := memRead_two f 6 _

/-- `PAY = {SEG1, SEG0}` (R31). -/
theorem pay_eq (f : FrameBuf) : f.pay = (f.seg1 ++ f.seg0 : BitVec 32) := memRead_four f 2 _

/-- `FRAME64 = {CRCF, SEG1, SEG0, HDR}` (R31). -/
theorem frame64_eq (f : FrameBuf) : f.frame64 = ((f.crcf ++ f.seg1) ++ (f.seg0 ++ f.hdr) : BitVec 64) := by
  have h1 := memRead_four f 4 (by decide)
  have h0 := memRead_four f 0 (by decide)
  show f.memRead 0 8 = _
  rw [memRead_eight, h1, h0]
  rfl

/-- Two bytes put together and taken apart. -/
theorem extract_append_low (a b : Byte) : (a ++ b : BitVec 16).extractLsb' 0 8 = b := by
  apply BitVec.eq_of_toNat_eq
  simp only [BitVec.extractLsb'_toNat, append_toNat, Nat.shiftRight_eq_div_pow]
  omega

/-- Two bytes put together and taken apart. -/
theorem extract_append_high (a b : Byte) : (a ++ b : BitVec 16).extractLsb' 8 8 = a := by
  apply BitVec.eq_of_toNat_eq
  simp only [BitVec.extractLsb'_toNat, append_toNat, Nat.shiftRight_eq_div_pow]
  omega

/-- A 16-bit value is its two bytes. -/
theorem append_extract (v : BitVec 16) : (v.extractLsb' 8 8 ++ v.extractLsb' 0 8 : BitVec 16) = v := by
  apply BitVec.eq_of_toNat_eq
  simp only [BitVec.extractLsb'_toNat, append_toNat, Nat.shiftRight_eq_div_pow]
  omega

/-- The trailer read back after it was written. -/
theorem crcf_memWrite_trailer (f : FrameBuf) (v : BitVec 16) : (f.memWrite 6 2 v).crcf = v := by
  rw [memWrite_trailer, crcf_eq]
  exact append_extract v

/-- The trailer is never part of the CRC's input (R57). -/
theorem coveredBytes_memWrite_trailer (c : Config) (f : FrameBuf) (v : BitVec 16) :
    coveredBytes c (f.memWrite 6 2 v) = coveredBytes c f := by
  rw [memWrite_trailer]
  unfold coveredBytes CrcCover.bytes
  cases c.crcCover <;> rfl

/-- Byte lane `i` of a frame value is `F[i]` (R42). -/
theorem ofRaw_frame64 (f : FrameBuf) : ofRaw f.frame64 = f := by
  rw [frame64_eq, crcf_eq, seg1_eq, seg0_eq, hdr_eq]
  obtain ⟨x0, x1, x2, x3, x4, x5, x6, x7⟩ := f
  simp only [ofRaw, rawByte, FrameBuf.mk.injEq]
  refine ⟨?_, ?_, ?_, ?_, ?_, ?_, ?_, ?_⟩ <;> apply BitVec.eq_of_toNat_eq <;>
    simp only [BitVec.extractLsb'_toNat, append_toNat, Nat.shiftRight_eq_div_pow] <;> omega

end Sys2Proof.Machine.FrameBuf
end

