-- ==== Sys2Proof/Laws/State.lean ====
section
/-! SUPPORT. One lemma per field per update of the state, so that no proof unfolds a record update. -/

namespace Sys2Proof.Machine.State

@[simp] theorem setF_f (s : State) (x : FrameBuf) : (s.setF x).f = x := rfl
@[simp] theorem setF_valid (s : State) (x : FrameBuf) : (s.setF x).valid = s.valid := rfl
@[simp] theorem setF_creg (s : State) (x : FrameBuf) : (s.setF x).creg = s.creg := rfl
@[simp] theorem setF_shadow (s : State) (x : FrameBuf) : (s.setF x).shadow = s.shadow := rfl
@[simp] theorem setF_cfg (s : State) (x : FrameBuf) : (s.setF x).cfg = s.cfg := rfl
@[simp] theorem setF_events (s : State) (x : FrameBuf) : (s.setF x).events = s.events := rfl
@[simp] theorem setF_rsps (s : State) (x : FrameBuf) : (s.setF x).rsps = s.rsps := rfl
@[simp] theorem setF_draws (s : State) (x : FrameBuf) : (s.setF x).draws = s.draws := rfl

@[simp] theorem setValid_f (s : State) (b : Bool) : (s.setValid b).f = s.f := rfl
@[simp] theorem setValid_valid (s : State) (b : Bool) : (s.setValid b).valid = b := rfl
@[simp] theorem setValid_creg (s : State) (b : Bool) : (s.setValid b).creg = s.creg := rfl
@[simp] theorem setValid_shadow (s : State) (b : Bool) : (s.setValid b).shadow = s.shadow := rfl
@[simp] theorem setValid_cfg (s : State) (b : Bool) : (s.setValid b).cfg = s.cfg := rfl
@[simp] theorem setValid_events (s : State) (b : Bool) : (s.setValid b).events = s.events := rfl
@[simp] theorem setValid_rsps (s : State) (b : Bool) : (s.setValid b).rsps = s.rsps := rfl
@[simp] theorem setValid_draws (s : State) (b : Bool) : (s.setValid b).draws = s.draws := rfl

@[simp] theorem setCreg_f (s : State) (c : Half) : (s.setCreg c).f = s.f := rfl
@[simp] theorem setCreg_valid (s : State) (c : Half) : (s.setCreg c).valid = s.valid := rfl
@[simp] theorem setCreg_creg (s : State) (c : Half) : (s.setCreg c).creg = c := rfl
@[simp] theorem setCreg_shadow (s : State) (c : Half) : (s.setCreg c).shadow = s.shadow := rfl
@[simp] theorem setCreg_cfg (s : State) (c : Half) : (s.setCreg c).cfg = s.cfg := rfl
@[simp] theorem setCreg_events (s : State) (c : Half) : (s.setCreg c).events = s.events := rfl
@[simp] theorem setCreg_rsps (s : State) (c : Half) : (s.setCreg c).rsps = s.rsps := rfl
@[simp] theorem setCreg_draws (s : State) (c : Half) : (s.setCreg c).draws = s.draws := rfl

@[simp] theorem setShadow_f (s : State) (x : FrameBuf) : (s.setShadow x).f = s.f := rfl
@[simp] theorem setShadow_valid (s : State) (x : FrameBuf) : (s.setShadow x).valid = s.valid := rfl
@[simp] theorem setShadow_creg (s : State) (x : FrameBuf) : (s.setShadow x).creg = s.creg := rfl
@[simp] theorem setShadow_shadow (s : State) (x : FrameBuf) : (s.setShadow x).shadow = x := rfl
@[simp] theorem setShadow_cfg (s : State) (x : FrameBuf) : (s.setShadow x).cfg = s.cfg := rfl
@[simp] theorem setShadow_events (s : State) (x : FrameBuf) : (s.setShadow x).events = s.events := rfl
@[simp] theorem setShadow_rsps (s : State) (x : FrameBuf) : (s.setShadow x).rsps = s.rsps := rfl
@[simp] theorem setShadow_draws (s : State) (x : FrameBuf) : (s.setShadow x).draws = s.draws := rfl

@[simp] theorem setEvents_f (s : State) (es : List Event) : (s.setEvents es).f = s.f := rfl
@[simp] theorem setEvents_valid (s : State) (es : List Event) : (s.setEvents es).valid = s.valid := rfl
@[simp] theorem setEvents_creg (s : State) (es : List Event) : (s.setEvents es).creg = s.creg := rfl
@[simp] theorem setEvents_shadow (s : State) (es : List Event) : (s.setEvents es).shadow = s.shadow := rfl
@[simp] theorem setEvents_cfg (s : State) (es : List Event) : (s.setEvents es).cfg = s.cfg := rfl
@[simp] theorem setEvents_events (s : State) (es : List Event) : (s.setEvents es).events = es := rfl
@[simp] theorem setEvents_rsps (s : State) (es : List Event) : (s.setEvents es).rsps = s.rsps := rfl
@[simp] theorem setEvents_draws (s : State) (es : List Event) : (s.setEvents es).draws = s.draws := rfl

@[simp] theorem answer_f (s : State) (r : Response) : (s.answer r).f = s.f := rfl
@[simp] theorem answer_valid (s : State) (r : Response) : (s.answer r).valid = s.valid := rfl
@[simp] theorem answer_creg (s : State) (r : Response) : (s.answer r).creg = s.creg := rfl
@[simp] theorem answer_shadow (s : State) (r : Response) : (s.answer r).shadow = s.shadow := rfl
@[simp] theorem answer_cfg (s : State) (r : Response) : (s.answer r).cfg = s.cfg := rfl
@[simp] theorem answer_events (s : State) (r : Response) : (s.answer r).events = s.events := rfl
@[simp] theorem answer_rsps (s : State) (r : Response) : (s.answer r).rsps = r :: s.rsps := rfl
@[simp] theorem answer_draws (s : State) (r : Response) : (s.answer r).draws = s.draws := rfl

@[simp] theorem drawCreg_f (s : State) : (s.drawCreg).f = s.f := rfl
@[simp] theorem drawCreg_valid (s : State) : (s.drawCreg).valid = s.valid := rfl
@[simp] theorem drawCreg_creg (s : State) : (s.drawCreg).creg = Config.freeCreg s.draws := rfl
@[simp] theorem drawCreg_shadow (s : State) : (s.drawCreg).shadow = s.shadow := rfl
@[simp] theorem drawCreg_cfg (s : State) : (s.drawCreg).cfg = s.cfg := rfl
@[simp] theorem drawCreg_events (s : State) : (s.drawCreg).events = s.events := rfl
@[simp] theorem drawCreg_rsps (s : State) : (s.drawCreg).rsps = s.rsps := rfl
@[simp] theorem drawCreg_draws (s : State) : (s.drawCreg).draws = s.draws + 1 := rfl

@[simp] theorem memWrite_f (s : State) (addr n : Nat) (v : BitVec (8 * n)) (h : addr + n ≤ 8) :
    (s.memWrite addr n v h).f = s.f.memWrite addr n v h := rfl
@[simp] theorem memWrite_valid (s : State) (addr n : Nat) (v : BitVec (8 * n)) (h : addr + n ≤ 8) :
    (s.memWrite addr n v h).valid = s.valid := rfl
@[simp] theorem memWrite_creg (s : State) (addr n : Nat) (v : BitVec (8 * n)) (h : addr + n ≤ 8) :
    (s.memWrite addr n v h).creg = s.creg := rfl
@[simp] theorem memWrite_shadow (s : State) (addr n : Nat) (v : BitVec (8 * n)) (h : addr + n ≤ 8) :
    (s.memWrite addr n v h).shadow = s.shadow := rfl
@[simp] theorem memWrite_cfg (s : State) (addr n : Nat) (v : BitVec (8 * n)) (h : addr + n ≤ 8) :
    (s.memWrite addr n v h).cfg = s.cfg := rfl
@[simp] theorem memWrite_events (s : State) (addr n : Nat) (v : BitVec (8 * n)) (h : addr + n ≤ 8) :
    (s.memWrite addr n v h).events = s.events := rfl
@[simp] theorem memWrite_rsps (s : State) (addr n : Nat) (v : BitVec (8 * n)) (h : addr + n ≤ 8) :
    (s.memWrite addr n v h).rsps = s.rsps := rfl
@[simp] theorem memWrite_draws (s : State) (addr n : Nat) (v : BitVec (8 * n)) (h : addr + n ≤ 8) :
    (s.memWrite addr n v h).draws = s.draws := rfl

/-- Two states are equal when their fields are. -/
theorem ext_fields {s t : State} (hf : s.f = t.f) (hv : s.valid = t.valid) (hc : s.creg = t.creg)
    (hs : s.shadow = t.shadow) (hg : s.cfg = t.cfg) (he : s.events = t.events) (hr : s.rsps = t.rsps)
    (hd : s.draws = t.draws) : s = t := by
  cases s; cases t; simp_all

end Sys2Proof.Machine.State
end

