-- ==== Sys2Proof/Laws/Crc.lean ====
section
/-! SUPPORT. What the micro-operations of `CRCGEN` do to the state, once for all (spec/40_crc_generator.md R56 to R61,
R65, R66). -/

namespace Sys2Proof.Machine

@[simp] theorem crcInit_creg (s : State) : (crcInit s).creg = crcInitValue := rfl
@[simp] theorem crcBit_creg (s : State) (d : Bool) : (crcBit s d).creg = crcBitStep s.creg d := rfl

/-- `CRC.BIT` over a list of bits changes `CREG` only. -/
theorem foldl_crcBit (s : State) (ds : List Bool) :
    ds.foldl crcBit s = s.setCreg (ds.foldl crcBitStep s.creg) := by
  induction ds generalizing s with
  | nil => rfl
  | cons d ds ih => rw [List.foldl_cons, ih]; rfl

/-- `CRC.BYTE` changes `CREG` only, as the register-level function says (R60). -/
theorem crcByte_eq (s : State) (b : Byte) : crcByte s b = s.setCreg (crcByteStep s.creg b) :=
  foldl_crcBit s (byteBits b)

/-- `CRC.BYTE` over a list of bytes changes `CREG` only. -/
theorem foldl_crcByte (s : State) (bs : List Byte) :
    bs.foldl crcByte s = s.setCreg (crcRegister s.creg bs) := by
  induction bs generalizing s with
  | nil => rfl
  | cons b bs ih => rw [List.foldl_cons, ih, crcByte_eq]; rfl

/-- One CRC computation returns `CRC16` of the bytes, whatever `CREG` held, and draws `CREG` (R56, R58, R66). -/
theorem crcRun_eq (s : State) (bs : List Byte) : crcRun s bs = (crc16 bs, s.drawCreg) := by
  have h : crcRun s bs = (crcFinal (bs.foldl crcByte (crcInit s)), (bs.foldl crcByte (crcInit s)).drawCreg) := rfl
  rw [h, foldl_crcByte]
  rfl

/-- `FRAMECRC()` (R57). -/
theorem frameCrc_eq (s : State) : frameCrc s = (frameCrcOf s.cfg s.f, s.drawCreg) := crcRun_eq s _

/-- The stamped state: the trailer holds the CRC of the covered bytes, nothing else but `CREG` changes (R65). -/
theorem stampCrc_eq (s : State) :
    stampCrc s = s.drawCreg.setF (s.f.memWrite 6 2 (frameCrcOf s.cfg s.f)) := by
  have h : stampCrc s = (frameCrc s).2.memWrite 6 2 (frameCrc s).1 := rfl
  rw [h, frameCrc_eq]
  rfl

/-- `FRAMECRC()` is unchanged by a write of the trailer (R57). -/
theorem frameCrcOf_memWrite_trailer (c : Config) (f : FrameBuf) (v : Half) :
    frameCrcOf c (f.memWrite 6 2 v) = frameCrcOf c f := by
  unfold frameCrcOf
  rw [FrameBuf.coveredBytes_memWrite_trailer]

end Sys2Proof.Machine
end

