-- ==== Sys2Proof/Laws/Decode.lean ====
section
/-! SUPPORT. Decoding and encoding at the ports (spec/30_encoding.md R50 to R52, R55). -/

namespace Sys2Proof

/-! The opcode map word by word (R50, R51). -/

section Words

variable (w : Bool) (r g d n : Nat) (raw : Raw)

@[simp] theorem decode_0000 : decode ⟨0b0000#4, w, r, g, d, n, raw⟩ = .defaultFrame := by simp [decode]
@[simp] theorem decode_0001 : decode ⟨0b0001#4, w, r, g, d, n, raw⟩ = .fillA w r g d := by simp [decode]
@[simp] theorem decode_1001 : decode ⟨0b1001#4, w, r, g, d, n, raw⟩ = .fillB w r g d := by simp [decode]
@[simp] theorem decode_0010 : decode ⟨0b0010#4, w, r, g, d, n, raw⟩ = .updcrc := by simp [decode]
@[simp] theorem decode_0011 : decode ⟨0b0011#4, w, r, g, d, n, raw⟩ = .rdraw := by simp [decode]
@[simp] theorem decode_0100 : decode ⟨0b0100#4, w, r, g, d, n, raw⟩ = .ldraw n raw := by simp [decode]
@[simp] theorem decode_0101 : decode ⟨0b0101#4, w, r, g, d, n, raw⟩ = .parseA := by simp [decode]
@[simp] theorem decode_1101 : decode ⟨0b1101#4, w, r, g, d, n, raw⟩ = .parseB := by simp [decode]
@[simp] theorem decode_0110 : decode ⟨0b0110#4, w, r, g, d, n, raw⟩ = .reserved0110 := by simp [decode]
@[simp] theorem decode_0111 : decode ⟨0b0111#4, w, r, g, d, n, raw⟩ = .reserved0111 := by simp [decode]
@[simp] theorem decode_1110 : decode ⟨0b1110#4, w, r, g, d, n, raw⟩ = .reserved1110 := by simp [decode]
@[simp] theorem decode_1111 : decode ⟨0b1111#4, w, r, g, d, n, raw⟩ = .reserved1111 := by simp [decode]
@[simp] theorem decode_1000 : decode ⟨0b1000#4, w, r, g, d, n, raw⟩ = .reserved1000 := by simp [decode]
@[simp] theorem decode_1010 : decode ⟨0b1010#4, w, r, g, d, n, raw⟩ = .reserved1010 := by simp [decode]
@[simp] theorem decode_1011 : decode ⟨0b1011#4, w, r, g, d, n, raw⟩ = .reserved1011 := by simp [decode]
@[simp] theorem decode_1100 : decode ⟨0b1100#4, w, r, g, d, n, raw⟩ = .reserved1100 := by simp [decode]

end Words

/-- `expand` names a command of the port, so a second expansion changes nothing. -/
theorem expand_expand (i : Instr) : expand (expand i) = expand i := by
  cases i <;> rfl

/-- A command and its expansion are presented on the same ports (R55). -/
theorem encode_expand (i : Instr) : encode (expand i) = encode i := by
  cases i <;> rfl

/-- A value that fits the lower field of a join is its remainder. -/
theorem join_mod {a n : Nat} (h : a < n) (b : Nat) : (a + n * b) % n = a := by
  rw [Nat.add_mul_mod_self_left, Nat.mod_eq_of_lt h]

/-- The upper part of a join is its quotient. -/
theorem join_div {a n : Nat} (h : a < n) (b : Nat) : (a + n * b) / n = b := by
  have hn : 0 < n := by omega
  rw [Nat.add_mul_div_left _ _ hn, Nat.div_eq_of_lt h, Nat.zero_add]

end Sys2Proof
end

