-- ==== Sys2Proof/Laws/Operands.lean ====
section
/-! SUPPORT. The values of the packed words, field by field (spec/30_encoding.md R42 to R45), so that proofs about them
are linear arithmetic. -/

namespace Sys2Proof.Machine

/-- A bit of a value is a digit of its number. -/
theorem getLsbD_eq_decide {n : Nat} (x : BitVec n) (i : Nat) : x.getLsbD i = decide (x.toNat / 2 ^ i % 2 = 1) := by
  rw [BitVec.getLsbD, Nat.testBit_eq_decide_div_mod_eq]

/-- A slice of a value is a quotient and a remainder. -/
theorem extract_toNat {n : Nat} (x : BitVec n) (lo len : Nat) :
    (x.extractLsb' lo len).toNat = x.toNat / 2 ^ lo % 2 ^ len := by
  rw [BitVec.extractLsb'_toNat, Nat.shiftRight_eq_div_pow]

/-- A digit group of a number, from the number split above, at and below it. -/
theorem slice_of_sum {N v lo len : Nat} (upper lower : Nat) (hv : v < 2 ^ len) (hl : lower < 2 ^ lo)
    (h : N = (upper * 2 ^ len + v) * 2 ^ lo + lower) : N / 2 ^ lo % 2 ^ len = v := by
  have hpos : 0 < 2 ^ lo := Nat.two_pow_pos lo
  rw [h, Nat.add_comm, Nat.add_mul_div_right _ _ hpos, Nat.div_eq_of_lt hl, Nat.zero_add, Nat.mul_comm,
    Nat.mul_add_mod, Nat.mod_eq_of_lt hv]

theorem ofBool_toNat (b : Bool) : (BitVec.ofBool b).toNat = b.toNat := by cases b <;> rfl

/-- The control word as a number (R44). -/
theorem ctrl16_toNat (x : Fields) :
    (ctrl16 x).toNat = x.acc.toNat * 2 ^ 15 + x.wr.toNat * 2 ^ 14 + x.rank.toNat * 2 ^ 12 + x.reg.toNat := by
  unfold ctrl16
  simp only [FrameBuf.append_toNat, ofBool_toNat]
  omega

/-- The Variant A payload as a number (R43). -/
theorem payA_toNat (x : Fields) :
    (payA x).toNat =
      x.acc.toNat * 2 ^ 31 + x.wr.toNat * 2 ^ 30 + x.rank.toNat * 2 ^ 28 + x.reg.toNat * 2 ^ 16 + x.data.toNat := by
  unfold payA
  simp only [FrameBuf.append_toNat, ofBool_toNat]
  omega

/-- A Variant A frame as a number (R42, R43). -/
theorem frameWordA_toNat (k : Half) (x : Fields) :
    (frameWordA k x).toNat = k.toNat * 2 ^ 48 + (payA x).toNat * 2 ^ 16 + 0xBEEF := by
  unfold frameWordA headerMagic
  simp only [FrameBuf.append_toNat]
  show _ + 0xBEEF = _
  omega

/-- A Variant B frame as a number (R42, R45). -/
theorem frameWordB_toNat (k : Half) (x : Fields) :
    (frameWordB k x).toNat = k.toNat * 2 ^ 48 + x.data.toNat * 2 ^ 32 + (ctrl16 x).toNat * 2 ^ 16 + 0xBEEF := by
  unfold frameWordB headerMagic seg0B seg1B
  simp only [FrameBuf.append_toNat]
  show _ + 0xBEEF = _
  omega

end Sys2Proof.Machine
end

