-- ==== Sys2Proof/Laws/Ops.lean ====
section
/-! SUPPORT. One lemma per shared operation that says everything it does, and one per instruction that names the state it
answers with. Proofs cite these instead of unfolding the operations. -/

namespace Sys2Proof.Machine

/-- The frame with its trailer stamped (R65). -/
def stampedBuf (c : Config) (f : FrameBuf) : FrameBuf := f.memWrite 6 2 (frameCrcOf c f)

@[simp] theorem stampedBuf_b0 (c : Config) (f : FrameBuf) : (stampedBuf c f).b0 = f.b0 := by
  rw [stampedBuf, FrameBuf.memWrite_trailer]
@[simp] theorem stampedBuf_b1 (c : Config) (f : FrameBuf) : (stampedBuf c f).b1 = f.b1 := by
  rw [stampedBuf, FrameBuf.memWrite_trailer]
@[simp] theorem stampedBuf_b2 (c : Config) (f : FrameBuf) : (stampedBuf c f).b2 = f.b2 := by
  rw [stampedBuf, FrameBuf.memWrite_trailer]
@[simp] theorem stampedBuf_b3 (c : Config) (f : FrameBuf) : (stampedBuf c f).b3 = f.b3 := by
  rw [stampedBuf, FrameBuf.memWrite_trailer]
@[simp] theorem stampedBuf_b4 (c : Config) (f : FrameBuf) : (stampedBuf c f).b4 = f.b4 := by
  rw [stampedBuf, FrameBuf.memWrite_trailer]
@[simp] theorem stampedBuf_b5 (c : Config) (f : FrameBuf) : (stampedBuf c f).b5 = f.b5 := by
  rw [stampedBuf, FrameBuf.memWrite_trailer]

/-- The trailer of a stamped frame is its CRC. -/
theorem stampedBuf_crcf (c : Config) (f : FrameBuf) : (stampedBuf c f).crcf = frameCrcOf c (stampedBuf c f) := by
  rw [stampedBuf, FrameBuf.crcf_memWrite_trailer, frameCrcOf_memWrite_trailer]

/-- Everything `sealFrame` does. -/
theorem sealFrame_eq (s : State) :
    sealFrame s = ((s.drawCreg).setF (stampedBuf s.cfg s.f)).setValid true := by
  rw [sealFrame, stampCrc_eq, stampedBuf]

@[simp] theorem sealFrame_f (s : State) : (sealFrame s).f = stampedBuf s.cfg s.f := by rw [sealFrame_eq]; rfl
@[simp] theorem sealFrame_valid (s : State) : (sealFrame s).valid = true := by rw [sealFrame_eq]; rfl
@[simp] theorem sealFrame_shadow (s : State) : (sealFrame s).shadow = s.shadow := by rw [sealFrame_eq]; rfl
@[simp] theorem sealFrame_cfg (s : State) : (sealFrame s).cfg = s.cfg := by rw [sealFrame_eq]; rfl
@[simp] theorem sealFrame_events (s : State) : (sealFrame s).events = s.events := by rw [sealFrame_eq]; rfl
@[simp] theorem sealFrame_rsps (s : State) : (sealFrame s).rsps = s.rsps := by rw [sealFrame_eq]; rfl

/-- The frame `DEFAULT` writes before its trailer (R68). -/
def blankBuf (f : FrameBuf) : FrameBuf := (f.memWrite 0 2 headerMagic).memWrite 2 4 0#32

theorem blankBuf_eq (f : FrameBuf) : blankBuf f = ⟨0xEF#8, 0xBE#8, 0#8, 0#8, 0#8, 0#8, f.b6, f.b7⟩ := by
  rw [blankBuf, FrameBuf.memWrite_header, FrameBuf.memWrite_payload]
  rfl

theorem crc16_reset_six : crc16 [0xEF#8, 0xBE#8, 0#8, 0#8, 0#8, 0#8] = 0x5E42#16 := by decide +kernel
theorem crc16_reset_five : crc16 [0xEF#8, 0xBE#8, 0#8, 0#8, 0#8] = 0xE38D#16 := by decide +kernel

/-- The frame of `DEFAULT` does not depend on the frame before it and is the reset frame (R25, R68). -/
theorem stampedBuf_blankBuf (c : Config) (f : FrameBuf) : stampedBuf c (blankBuf f) = FrameBuf.reset c.crcCover := by
  rw [stampedBuf, frameCrcOf, FrameBuf.memWrite_trailer, blankBuf_eq]
  cases hc : c.crcCover
  · have h : coveredBytes c ⟨0xEF#8, 0xBE#8, 0#8, 0#8, 0#8, 0#8, f.b6, f.b7⟩ =
        [0xEF#8, 0xBE#8, 0#8, 0#8, 0#8, 0#8] := by unfold coveredBytes; rw [hc]; rfl
    rw [h, crc16_reset_six]
    rfl
  · have h : coveredBytes c ⟨0xEF#8, 0xBE#8, 0#8, 0#8, 0#8, 0#8, f.b6, f.b7⟩ =
        [0xEF#8, 0xBE#8, 0#8, 0#8, 0#8] := by unfold coveredBytes; rw [hc]; rfl
    rw [h, crc16_reset_five]
    rfl

/-- Everything the frame of `DEFAULT` leaves (R68). -/
theorem writeDefaultFrame_eq (s : State) :
    writeDefaultFrame s = ((s.drawCreg).setF (FrameBuf.reset s.cfg.crcCover)).setValid true := by
  have h : writeDefaultFrame s = sealFrame (s.setF (blankBuf s.f)) := rfl
  rw [h, sealFrame_eq]
  show (((s.setF (blankBuf s.f)).drawCreg).setF (stampedBuf s.cfg (blankBuf s.f))).setValid true = _
  rw [stampedBuf_blankBuf]
  rfl

/-- Everything `RESET` leaves (R25, R97): the spec's state is that of `State.resetWith`. -/
theorem applyReset_eq (s : State) :
    applyReset s =
      { s with
        f := FrameBuf.reset s.cfg.crcCover, valid := true, creg := 0xFFFF#16, shadow := FrameBuf.zero,
        draws := s.draws + 1 } := by
  rw [applyReset, writeDefaultFrame_eq]
  rfl

/-- An error changes nothing but the responses (R82). -/
theorem raise_eq (s : State) (st : Status) : raise s st = .next (s.answer (Response.bare st)) := rfl

/-- Everything a received buffer can do (R76). -/
theorem loadBuffer_cases (len : Nat) (raw : Raw) (s : State) :
    (len ≠ 8 ∧ loadBuffer len raw s = .next (s.answer (Response.bare .badLength))) ∨
    (len = 8 ∧ frameCrcOf s.cfg (FrameBuf.ofRaw raw) = (FrameBuf.ofRaw raw).crcf ∧ s.cfg.decodeCommit = .overwrite ∧
      loadBuffer len raw s =
        .next (((s.drawCreg.setF (FrameBuf.ofRaw raw)).setValid true).answer (Response.bare .ok))) ∨
    (len = 8 ∧ frameCrcOf s.cfg (FrameBuf.ofRaw raw) = (FrameBuf.ofRaw raw).crcf ∧ s.cfg.decodeCommit = .scratch ∧
      loadBuffer len raw s =
        .next ((((s.drawCreg.setShadow (FrameBuf.ofRaw raw)).setF (FrameBuf.ofRaw raw)).setValid true).answer
          (Response.bare .ok))) ∨
    (len = 8 ∧ frameCrcOf s.cfg (FrameBuf.ofRaw raw) ≠ (FrameBuf.ofRaw raw).crcf ∧ s.cfg.decodeCommit = .overwrite ∧
      loadBuffer len raw s =
        .next (((s.drawCreg.setF (FrameBuf.ofRaw raw)).setValid false).answer (Response.bare .crcMismatch))) ∨
    (len = 8 ∧ frameCrcOf s.cfg (FrameBuf.ofRaw raw) ≠ (FrameBuf.ofRaw raw).crcf ∧ s.cfg.decodeCommit = .scratch ∧
      loadBuffer len raw s =
        .next ((s.drawCreg.setShadow (FrameBuf.ofRaw raw)).answer (Response.bare .crcMismatch))) := by
  by_cases hn : len = 8
  · have h : loadBuffer len raw s = commitBuffer (FrameBuf.ofRaw raw)
        (crcRun s (coveredBytes s.cfg (FrameBuf.ofRaw raw))).1
        (crcRun s (coveredBytes s.cfg (FrameBuf.ofRaw raw))).2 := by rw [loadBuffer, if_pos hn]
    rw [h, crcRun_eq]
    have hm : trailerMatches (crc16 (coveredBytes s.cfg (FrameBuf.ofRaw raw))) (FrameBuf.ofRaw raw) = true ↔
        frameCrcOf s.cfg (FrameBuf.ofRaw raw) = (FrameBuf.ofRaw raw).crcf := by
      simp [trailerMatches, frameCrcOf]
    by_cases he : frameCrcOf s.cfg (FrameBuf.ofRaw raw) = (FrameBuf.ofRaw raw).crcf
    · have ht := hm.2 he
      cases hd : s.cfg.decodeCommit
      · exact .inr (.inl ⟨hn, he, rfl, by simp only [commitBuffer, State.drawCreg_cfg, hd, ht, if_true]; rfl⟩)
      · exact .inr (.inr (.inl ⟨hn, he, rfl, by simp only [commitBuffer, State.drawCreg_cfg, hd, ht, if_true]; rfl⟩))
    · have ht : trailerMatches (crc16 (coveredBytes s.cfg (FrameBuf.ofRaw raw))) (FrameBuf.ofRaw raw) = false := by
        rw [← Bool.not_eq_true, hm]; exact he
      cases hd : s.cfg.decodeCommit
      · exact .inr (.inr (.inr (.inl ⟨hn, he, rfl, by
          simp only [commitBuffer, State.drawCreg_cfg, hd, ht, Bool.false_eq_true, if_false]; rfl⟩)))
      · exact .inr (.inr (.inr (.inr ⟨hn, he, rfl, by
          simp only [commitBuffer, State.drawCreg_cfg, hd, ht, Bool.false_eq_true, if_false]; rfl⟩)))
  · exact .inl ⟨hn, by rw [loadBuffer, if_neg hn]; rfl⟩

/-- Everything the two forms of `FILL` do (R69, R70), the payload already written in `f`. -/
theorem fillPayloadA_eq (x : Fields) (s : State) :
    fillPayloadA x s = .next ((((s.drawCreg).setF (stampedBuf s.cfg (s.f.memWrite 2 4 (payA x)))).setValid true).answer
      (Response.bare .ok)) := by
  rw [fillPayloadA, respondOk, respond, sealFrame_eq]
  rfl

theorem fillPayloadB_eq (x : Fields) (s : State) :
    fillPayloadB x s =
      .next ((((s.drawCreg).setF (stampedBuf s.cfg ((s.f.memWrite 2 2 (seg0B x)).memWrite 4 2 (seg1B x)))).setValid
        true).answer (Response.bare .ok)) := by
  rw [fillPayloadB, respondOk, respond, sealFrame_eq]
  rfl

/-- The reads answer with a response and change nothing else (R73, R78, R79). -/
theorem execRdraw_valid (s : State) (h : s.valid = true) :
    execRdraw s = .next (s.answer { Response.bare .ok with raw := s.f.frame64 }) := by simp [execRdraw, h, respond]
theorem execRdraw_invalid (s : State) (h : s.valid = false) :
    execRdraw s = .next (s.answer (Response.bare .crcMismatch)) := by simp [execRdraw, h, raise, respond]
theorem execParseA_valid (s : State) (h : s.valid = true) :
    execParseA s = .next (s.answer (Response.ofFields
      (unpack (s.f.pay.extractLsb' 16 16) (s.f.pay.extractLsb' 0 16) (readbackMaskA s.cfg)))) := by
  simp [execParseA, h, respond]
theorem execParseA_invalid (s : State) (h : s.valid = false) :
    execParseA s = .next (s.answer (Response.bare .crcMismatch)) := by simp [execParseA, h, raise, respond]
theorem execParseB_valid (s : State) (h : s.valid = true) :
    execParseB s = .next (s.answer (Response.ofFields (unpack s.f.seg0 s.f.seg1 regMask))) := by
  simp [execParseB, h, respond]
theorem execParseB_invalid (s : State) (h : s.valid = false) :
    execParseB s = .next (s.answer (Response.bare .crcMismatch)) := by simp [execParseB, h, raise, respond]

end Sys2Proof.Machine
end

