-- ==== Sys2Proof/Laws/PerInstr.lean ====
section
/-! SUPPORT. The family PortRoundTrip: a command presented on its ports is read back as the command its words stand
for. One lemma per constructor. -/

namespace Sys2Proof.Laws.PortRoundTrip

/-- Decoding the ports of `i` gives `i`, a pseudo-command or a frame as the command its words are (R55). -/
def Statement (i : Instr) : Prop := decode (encode i) = expand i

theorem defaultFrame : Statement .defaultFrame := rfl
theorem fillA (w : Bool) (r g d : Nat) :
    Statement (.fillA w r g d) := by simp [Statement, encode, decode, expand]
theorem fillB (w : Bool) (r g d : Nat) :
    Statement (.fillB w r g d) := by simp [Statement, encode, decode, expand]
theorem updcrc : Statement .updcrc := rfl
theorem rdraw : Statement .rdraw := rfl
theorem ldraw (n : Nat) (raw : Raw) :
    Statement (.ldraw n raw) := by simp [Statement, encode, decode, expand]
theorem parseA : Statement .parseA := rfl
theorem parseB : Statement .parseB := rfl
theorem reserved0110 : Statement .reserved0110 := rfl
theorem reserved0111 : Statement .reserved0111 := rfl
theorem reserved1110 : Statement .reserved1110 := rfl
theorem reserved1111 : Statement .reserved1111 := rfl
theorem reserved1000 : Statement .reserved1000 := rfl
theorem reserved1010 : Statement .reserved1010 := rfl
theorem reserved1011 : Statement .reserved1011 := rfl
theorem reserved1100 : Statement .reserved1100 := rfl
theorem filleA (w : Bool) (r g : Nat) :
    Statement (.filleA w r g) := by simp [Statement, encode, decode, expand]
theorem filleB (w : Bool) (r g : Nat) :
    Statement (.filleB w r g) := by simp [Statement, encode, decode, expand]
theorem frameA (crcf : Half) (acc wr : Bool) (rank : BitVec 2) (reg : BitVec 12) (data : Half) :
    Statement (.frameA crcf acc wr rank reg data) := by simp [Statement, encode, decode, expand]
theorem frameB (crcf : Half) (acc wr : Bool) (rank : BitVec 2) (reg : BitVec 12) (data : Half) :
    Statement (.frameB crcf acc wr rank reg data) := by simp [Statement, encode, decode, expand]

end Sys2Proof.Laws.PortRoundTrip
end

