-- ==== Sys2Proof/Tests/Slice0.lean ====
section
/-! SUPPORT. Small tests: what the checks of WellFormed refuse, the decoding of words written out from the spec, one step
of every command on the values of spec/95_test_vectors.md, and for every obligation with hypotheses a state and operands
that meet them. -/

namespace Sys2Proof.Tests

open Sys2Proof Sys2Proof.Machine

/-! ## Helpers -/

/-- Eight wire bytes. -/
def wire (x0 x1 x2 x3 x4 x5 x6 x7 : Byte) : FrameBuf := ⟨x0, x1, x2, x3, x4, x5, x6, x7⟩

/-- The parameter values this hardware does not have (R9). -/
def cover5 : Config := { hardware with crcCover := .five }
def scratch : Config := { hardware with decodeCommit := .scratch }
def fixed : Config := { hardware with regReadbackFix := true }

/-- An instance right after reset whose buffer and flag were set to these. -/
def holding (c : Config) (f : FrameBuf) (v : Bool) : State := { State.resetWith c with f := f, valid := v }

/-- What an outcome shows: `F`, `VALID` and the newest response; `none` for a stop. -/
def shows : Result → Option (FrameBuf × Bool × Option Response)
  | .next t => some (t.f, t.valid, t.rsps.head?)
  | .fault _ => none
  | .refused _ => none

/-- The response of a read of fields. -/
def fields (acc wr : Bool) (rank : BitVec 2) (reg : BitVec 12) (data : Half) : Response :=
  ⟨.ok, 0#64, acc, wr, rank, reg, data⟩

/-- The frame of row A6, the same with bit 0 of byte 2 flipped, the frame of row B6 (95, V3, V5). -/
def rowA6 : FrameBuf := wire 0xEF 0xBE 0x34 0x12 0xBC 0xAA 0x99 0xDA
def rowA6bad : FrameBuf := wire 0xEF 0xBE 0x35 0x12 0xBC 0xAA 0x99 0xDA
def rowB6 : FrameBuf := wire 0xEF 0xBE 0xBC 0xAA 0x34 0x12 0xDE 0x61

/-! ## WellFormed refuses (R52, R9) -/

theorem test_fillA_rank_too_wide : wellFormed hardware (.fillA true 4294967296 0 0) = false := by decide
theorem test_fillA_reg_too_wide : wellFormed hardware (.fillA true 0 4294967296 0) = false := by decide
theorem test_fillA_data_too_wide : wellFormed hardware (.fillA true 0 0 4294967296) = false := by decide
theorem test_fillA_widest : wellFormed hardware (.fillA true 4294967295 4294967295 4294967295) = true := by decide
theorem test_fillB_rank_too_wide : wellFormed hardware (.fillB true 4294967296 0 0) = false := by decide
theorem test_fillB_reg_too_wide : wellFormed hardware (.fillB true 0 4294967296 0) = false := by decide
theorem test_fillB_data_too_wide : wellFormed hardware (.fillB true 0 0 4294967296) = false := by decide
theorem test_filleA_rank_too_wide : wellFormed hardware (.filleA true 4294967296 0) = false := by decide
theorem test_filleA_reg_too_wide : wellFormed hardware (.filleA true 0 4294967296) = false := by decide
theorem test_filleB_rank_too_wide : wellFormed hardware (.filleB true 4294967296 0) = false := by decide
theorem test_filleB_reg_too_wide : wellFormed hardware (.filleB true 0 4294967296) = false := by decide
theorem test_ldraw_length_too_wide : wellFormed hardware (.ldraw 16 0#64) = false := by decide
theorem test_ldraw_length_widest : wellFormed hardware (.ldraw 15 0#64) = true := by decide
theorem test_ports_rank_too_wide : Ports.wf hardware ⟨0#4, false, 4294967296, 0, 0, 0, 0#64⟩ = false := by decide
theorem test_ports_reg_too_wide : Ports.wf hardware ⟨0#4, false, 0, 4294967296, 0, 0, 0#64⟩ = false := by decide
theorem test_ports_data_too_wide : Ports.wf hardware ⟨0#4, false, 0, 0, 4294967296, 0, 0#64⟩ = false := by decide
theorem test_ports_length_too_wide : Ports.wf hardware ⟨0#4, false, 0, 0, 0, 16, 0#64⟩ = false := by decide
theorem test_opnd_w_too_narrow : Config.wf { hardware with opndW := 16 } = false := by decide
theorem test_raw_len_w_too_narrow : Config.wf { hardware with rawLenW := 3 } = false := by decide
theorem test_hardware_is_admitted : hardware.wf = true := by decide

/-! ## Decoding: every word of the opcode map (R50, R51), and the two formats (R42, R43, R45) -/

theorem test_decode_default : decode ⟨0b0000#4, true, 1, 2, 3, 8, 4#64⟩ = .defaultFrame := by decide
theorem test_decode_fillA : decode ⟨0b0001#4, true, 1, 2, 3, 8, 4#64⟩ = .fillA true 1 2 3 := by decide
theorem test_decode_fillB : decode ⟨0b1001#4, true, 1, 2, 3, 8, 4#64⟩ = .fillB true 1 2 3 := by decide
theorem test_decode_updcrc : decode ⟨0b0010#4, true, 1, 2, 3, 8, 4#64⟩ = .updcrc := by decide
theorem test_decode_rdraw : decode ⟨0b0011#4, true, 1, 2, 3, 8, 4#64⟩ = .rdraw := by decide
theorem test_decode_ldraw : decode ⟨0b0100#4, true, 1, 2, 3, 8, 4#64⟩ = .ldraw 8 4#64 := by decide
theorem test_decode_parseA : decode ⟨0b0101#4, true, 1, 2, 3, 8, 4#64⟩ = .parseA := by decide
theorem test_decode_parseB : decode ⟨0b1101#4, true, 1, 2, 3, 8, 4#64⟩ = .parseB := by decide
theorem test_decode_0110 : decode ⟨0b0110#4, true, 1, 2, 3, 8, 4#64⟩ = .reserved0110 := by decide
theorem test_decode_0111 : decode ⟨0b0111#4, true, 1, 2, 3, 8, 4#64⟩ = .reserved0111 := by decide
theorem test_decode_1110 : decode ⟨0b1110#4, true, 1, 2, 3, 8, 4#64⟩ = .reserved1110 := by decide
theorem test_decode_1111 : decode ⟨0b1111#4, true, 1, 2, 3, 8, 4#64⟩ = .reserved1111 := by decide
theorem test_decode_1000 : decode ⟨0b1000#4, true, 1, 2, 3, 8, 4#64⟩ = .reserved1000 := by decide
theorem test_decode_1010 : decode ⟨0b1010#4, true, 1, 2, 3, 8, 4#64⟩ = .reserved1010 := by decide
theorem test_decode_1011 : decode ⟨0b1011#4, true, 1, 2, 3, 8, 4#64⟩ = .reserved1011 := by decide
theorem test_decode_1100 : decode ⟨0b1100#4, true, 1, 2, 3, 8, 4#64⟩ = .reserved1100 := by decide

/-- R55: the words of `FILLE` are those of `FILL` with `op_data = 0`. -/
theorem test_decode_filleA : decode (encode (.filleA true 0 0xB0)) = .fillA true 0 0xB0 0 := by decide
theorem test_decode_filleB : decode (encode (.filleB false 3 0xFFF)) = .fillB false 3 0xFFF 0 := by decide

/-- The frame of row A6, bit by bit: trailer `DA99`, `ACC` 1, `WR` 0, `RANK` 10, `REG` ABC, `DATA` 1234, header. -/
theorem test_decode_frameA :
    decodeFrameA 0b1101101010011001101010101011110000010010001101001011111011101111#64 =
      .ok (.frameA 0xDA99#16 true false 0b10#2 0xABC#12 0x1234#16) := by decide
/-- The frame of row B6, bit by bit: trailer `61DE`, `SEG1` 1234, `SEG0` AABC, header. -/
theorem test_decode_frameB :
    decodeFrameB 0b0110000111011110000100100011010010101010101111001011111011101111#64 =
      .ok (.frameB 0x61DE#16 true false 0b10#2 0xABC#12 0x1234#16) := by decide
theorem test_frame_header_refused : decodeFrameA 0xDA99AABC1234EFBE#64 = .error .headerNotMagic := by decide
theorem test_frameB_header_refused : decodeFrameB 0x61DE1234AABCBEEE#64 = .error .headerNotMagic := by decide

/-- The opcode table's numbering: `op_is_write`, then `op_rank`, `op_reg`, `op_data` above `cmd_op` (log entry 12). -/
theorem test_table_word_operands :
    decodeTableWord 104 (1 + 2 ^ 4 * 1 + 2 ^ 5 * 2 + 2 ^ 37 * 0xABC + 2 ^ 69 * 0x1234) = some (.fillA true 2 0xABC 0x1234) := by
  decide +kernel

/-! ## The CRC generator (95, V2) -/

theorem test_crc_check_value :
    crc16 [0x31#8, 0x32#8, 0x33#8, 0x34#8, 0x35#8, 0x36#8, 0x37#8, 0x38#8, 0x39#8] = 0xD64E#16 := by decide +kernel
theorem test_crc_row_A6 : crc16 [0xEF#8, 0xBE#8, 0x34#8, 0x12#8, 0xBC#8, 0xAA#8] = 0xDA99#16 := by decide +kernel
theorem test_crc_five_bytes : crc16 [0xEF#8, 0xBE#8, 0#8, 0#8, 0#8] = 0xE38D#16 := by decide +kernel
theorem test_crc_first_byte : crcByteStep 0xFFFF#16 0xEF#8 = 0xED31#16 := by decide +kernel
theorem test_crc_bit : crcBitStep 0xFFF8#16 false = 0xEFD1#16 := by decide +kernel
/-- R65: no constant residue in this format; the other byte order has one. -/
theorem test_crc_residue :
    crcRegister 0xFFFF#16 [0xEF#8, 0xBE#8, 0#8, 0#8, 0#8, 0#8, 0x42#8, 0x5E#8] = 0x88AC#16 ∧
    crcRegister 0xFFFF#16 [0xEF#8, 0xBE#8, 0#8, 0#8, 0#8, 0#8, 0x5E#8, 0x42#8] = 0x1D0F#16 := by decide +kernel
/-- V2d. -/
theorem test_table_spots :
    crcTable[0x7F]? = some 0x8F78#16 ∧ crcTable[0x80]? = some 0x9188#16 ∧ crcTable[0xBE]? = some 0x4615#16 ∧
    crcTable[0xEF]? = some 0x0CC1#16 := by decide +kernel

/-! ## Each command (95, V1, V3 to V7) -/

/-- V6: from rejected bytes; V7: with `CRC_COVER = 5`. -/
theorem test_default :
    shows (exec .defaultFrame (holding hardware rowA6bad false)) =
      some (wire 0xEF 0xBE 0 0 0 0 0x42 0x5E, true, some (Response.bare .ok)) := by decide +kernel
theorem test_default_cover5 :
    shows (exec .defaultFrame (holding cover5 rowA6bad false)) =
      some (wire 0xEF 0xBE 0 0 0 0 0x8D 0xE3, true, some (Response.bare .ok)) := by decide +kernel
/-- Row A9: masking of wide operands. P5 step 3: the header stays. -/
theorem test_fillA :
    shows (exec (.fillA false 7 0x1ABC 0x1FFFF) State.reset) =
      some (wire 0xEF 0xBE 0xFF 0xFF 0xBC 0xBA 0x73 0x87, true, some (Response.bare .ok)) := by decide +kernel
theorem test_fillA_stale_header :
    shows (exec (.fillA true 0 0xB0 0) (holding hardware (wire 0x34 0x12 1 2 3 4 0x18 0x95) true)) =
      some (wire 0x34 0x12 0 0 0xB0 0x40 0xD2 0xCE, true, some (Response.bare .ok)) := by decide +kernel
/-- Row B14; V7. -/
theorem test_fillB :
    shows (exec (.fillB false 0 3 0x10001) State.reset) =
      some (wire 0xEF 0xBE 0x03 0x80 0x01 0x00 0xF5 0xCD, true, some (Response.bare .ok)) := by decide +kernel
theorem test_fillB_cover5 :
    shows (exec (.fillB false 2 0xABC 0x1234) (State.resetWith cover5)) =
      some (wire 0xEF 0xBE 0xBC 0xAA 0x34 0x12 0x71 0xEC, true, some (Response.bare .ok)) := by decide +kernel
/-- Row A13. -/
theorem test_filleA :
    shows (exec (.filleA false 3 0xFFF) State.reset) =
      some (wire 0xEF 0xBE 0 0 0xFF 0x3F 0x01 0x9A, true, some (Response.bare .ok)) := by decide +kernel
/-- Row B13. -/
theorem test_filleB :
    shows (exec (.filleB false 3 0xFFF) State.reset) =
      some (wire 0xEF 0xBE 0xFF 0x3F 0 0 0x75 0xFC, true, some (Response.bare .ok)) := by decide +kernel
/-- P4 step 2: rejected bytes adopted. -/
theorem test_updcrc :
    shows (exec .updcrc (holding hardware rowA6bad false)) =
      some (wire 0xEF 0xBE 0x35 0x12 0xBC 0xAA 0x2D 0xAC, true, some (Response.bare .ok)) := by decide +kernel
/-- P2 step 2; V4V. -/
theorem test_rdraw :
    shows (exec .rdraw (holding hardware rowB6 true)) =
      some (rowB6, true, some ⟨.ok, 0x61DE1234AABCBEEF#64, false, false, 0#2, 0#12, 0#16⟩) := by decide +kernel
theorem test_rdraw_rejected :
    shows (exec .rdraw (holding hardware rowA6bad false)) =
      some (rowA6bad, false, some ⟨.crcMismatch, 0#64, false, false, 0#2, 0#12, 0#16⟩) := by decide +kernel
/-- V5: bit 0 of byte 2 flipped, `OVERWRITE` and `SCRATCH`. -/
theorem test_ldraw_overwrite :
    shows (exec (.ldraw 8 0xDA99AABC1235BEEF#64) State.reset) =
      some (rowA6bad, false, some (Response.bare .crcMismatch)) := by decide +kernel
theorem test_ldraw_scratch :
    shows (exec (.ldraw 8 0xDA99AABC1235BEEF#64) (State.resetWith scratch)) =
      some (wire 0xEF 0xBE 0 0 0 0 0x42 0x5E, true, some (Response.bare .crcMismatch)) := by decide +kernel
/-- Row A12, lit and fix. -/
theorem test_parseA :
    shows (exec .parseA (holding hardware (wire 0xEF 0xBE 0xAA 0xAA 0x55 0xE5 0x03 0xFA) true)) =
      some (wire 0xEF 0xBE 0xAA 0xAA 0x55 0xE5 0x03 0xFA, true, some (fields true true 2#2 0x001#12 0xAAAA#16)) := by
  decide +kernel
theorem test_parseA_fix :
    shows (exec .parseA (holding fixed (wire 0xEF 0xBE 0xAA 0xAA 0x55 0xE5 0x03 0xFA) true)) =
      some (wire 0xEF 0xBE 0xAA 0xAA 0x55 0xE5 0x03 0xFA, true, some (fields true true 2#2 0x555#12 0xAAAA#16)) := by
  decide +kernel
/-- V4X: a Variant A frame read as Variant B. V4R: the stored access bit is reported. -/
theorem test_parseB_of_A6 :
    shows (exec .parseB (holding hardware rowA6 true)) =
      some (rowA6, true, some (fields false false 1#2 0x234#12 0xAABC#16)) := by decide +kernel
theorem test_parseB_stored_access :
    shows (exec .parseB (holding hardware (wire 0xEF 0xBE 0x34 0x12 0xBC 0x2A 0x11 0x4B) true)) =
      some (wire 0xEF 0xBE 0x34 0x12 0xBC 0x2A 0x11 0x4B, true, some (fields false false 1#2 0x234#12 0x2ABC#16)) := by
  decide +kernel
/-- V5: the good frame of row A6 and the Variant B frame of row B6, received. -/
theorem test_frameA :
    shows (exec (.frameA 0xDA99#16 true false 2#2 0xABC#12 0x1234#16) State.reset) =
      some (rowA6, true, some (Response.bare .ok)) := by decide +kernel
theorem test_frameB :
    shows (exec (.frameB 0x61DE#16 true false 2#2 0xABC#12 0x1234#16) State.reset) =
      some (rowB6, true, some (Response.bare .ok)) := by decide +kernel
/-- V6: the eight reserved words. -/
theorem test_reserved :
    reservedInstrs.map (fun i => shows (exec i (holding hardware rowA6bad false))) =
      List.replicate 8 (some (rowA6bad, false, some (Response.bare .badCommand))) := by decide +kernel
/-- V5: the lengths 7 and 9 stop before the CRC. -/
theorem test_ldraw_lengths :
    shows (exec (.ldraw 7 0xDA99AABC1235BEEF#64) State.reset) =
      some (wire 0xEF 0xBE 0 0 0 0 0x42 0x5E, true, some (Response.bare .badLength)) ∧
    shows (exec (.ldraw 9 0xDA99AABC1234BEEF#64) (holding hardware rowA6bad false)) =
      some (rowA6bad, false, some (Response.bare .badLength)) := by decide +kernel

/-! ## The step -/

theorem test_step_runs_the_first_word :
    shows (step (State.reset.withFetchWord 8 0x2)) =
      some (wire 0xEF 0xBE 0 0 0 0 0x42 0x5E, true, some (Response.bare .ok)) := by decide +kernel
theorem test_step_reset :
    shows (step ((holding cover5 rowA6bad false).setEvents [.reset none])) =
      some (wire 0xEF 0xBE 0 0 0 0 0x8D 0xE3, true, none) := by decide +kernel

/-! ## Witnesses: for every obligation with hypotheses, inputs that meet them, each clause at a boundary value -/

/-- The narrowest operand widths R9 admits. -/
def narrow : Config := { hardware with opndW := 17, rawLenW := 4 }

theorem witness_EncodedCommandsDecodeBack :
    hardware.wf = true ∧ wellFormed hardware (.fillA true 4294967295 4294967295 4294967295) = true ∧
    wellFormed hardware (.ldraw 15 0xFFFFFFFFFFFFFFFF#64) = true ∧ narrow.wf = true ∧
    wellFormed narrow (.filleB true 131071 131071) = true := by decide
theorem witness_FrameWordsDecodeBack :
    (0xDA99AABC1234BEEF#64).extractLsb' 0 16 = 0xBEEF#16 ∧ (0xDA99AABC1234BEEE#64).extractLsb' 0 16 ≠ 0xBEEF#16 := by decide
theorem witness_MemReadAndMemWriteAreLittleEndian :
    (6 + 2 ≤ 8 ∧ 1 < 2 ∧ 5 < 8 ∧ 5 < 6) ∧ (0 + 2 ≤ 8 ∧ 1 < 2 ∧ 2 < 8 ∧ 0 + 2 ≤ 2) ∧ 0 + 8 ≤ 8 := by decide
theorem witness_ViewsAreLittleEndian : 0 < 8 ∧ 7 < 8 := by decide
theorem witness_CrcBitIsTheShiftRegister :
    (0 < 16 ∧ 4 < 16 ∧ 5 < 16 ∧ 12 < 16 ∧ 15 < 16) ∧ (State.reset.setCreg 0xFFF8#16).creg = 0xFFF8#16 := by decide
theorem witness_FrameCrcCoversTheLeadingBytes :
    State.reset.cfg.crcCover = .six ∧ (State.resetWith cover5).cfg.crcCover = .five := by decide
theorem witness_ByteAndTableFormsAgree : 0 < 256 ∧ 255 < 256 := by decide
theorem witness_CrcIsAffine : [0xEF#8, 0xBE#8].length = [0x00#8, 0x00#8].length ∧ [0x00#8, 0x00#8].length = [1#8, 2#8].length := by
  decide
theorem witness_SingleBitChangesAreDetected : 7 < 8 ∧ rowA6.toList.length = 5 + 1 + 2 ∧ [0#8].length = 0 + 1 + 0 := by decide
theorem witness_DoubleBitChangesAreDetected :
    (rowA6.toList.take 6).length = 6 ∧ 0 < 48 ∧ 47 < 48 ∧ 15 < 16 ∧ 47 ≠ 0 := by decide
theorem witness_ResetStateHasTheTabulatedValues : hardware.crcCover = .six ∧ cover5.crcCover = .five := by decide
theorem witness_StepRunsTheDecodedCommand :
    (State.reset.withFetchWord 8 0x5).events = .command ⟨0b0101#4, false, 0, 0, 0, 0, 0#64⟩ :: [] ∧ hardware.wf = true ∧
    wellFormed hardware (.filleA true 4294967295 0) = true := by decide
theorem witness_ResetEventRestoresTheResetFrame :
    ((holding hardware rowA6bad false).setEvents [.reset (some (bareWord 0b0010#4))]).events =
      .reset (some (bareWord 0b0010#4)) :: [] := by decide
theorem witness_IdleStepKeepsEverything : (holding hardware rowA6bad false).events = [] := by decide
theorem witness_CommandsRunInOrderEachOnTheLastState :
    (State.reset.setEvents [.command (bareWord 0b0010#4), .command (bareWord 0b0011#4), .reset none]).events =
      [bareWord 0b0010#4, bareWord 0b0011#4].map Event.command ++ [.reset none] := by decide
theorem witness_StepKeepsValidMeansMatching :
    ValidMeansMatching (holding hardware rowA6bad false) ∧ ValidMeansMatching (holding hardware rowA6 true) ∧
    shows (step ((holding hardware rowA6 true).present (bareWord 0b0010#4))) =
      some (rowA6, true, some (Response.bare .ok)) := by decide +kernel
theorem witness_StepKeepsScratchAlwaysValid :
    ScratchMeansValid (State.resetWith scratch) ∧ scratch.decodeCommit = .scratch ∧
    ∃ t, step (State.resetWith scratch) = .next t := ⟨by decide, by decide, _, rfl⟩
theorem witness_HiddenStateIsNeverObserved :
    visible State.reset = visible ((State.reset.setCreg 0#16).setShadow rowA6) ∧
    State.reset ≠ (State.reset.setCreg 0#16).setShadow rowA6 ∧ (∃ t, step State.reset = .next t) ∧
    ∃ t, step ((State.reset.setCreg 0#16).setShadow rowA6) = .next t := ⟨by decide, by decide, ⟨_, rfl⟩, _, rfl⟩
theorem witness_EveryCommandAnswersOnce :
    (Response.bare .badLength).status ≠ .ok ∧ Instr.ldraw 7 0#64 ≠ .rdraw ∧ Instr.ldraw 7 0#64 ≠ .parseA ∧
    Instr.ldraw 7 0#64 ≠ .parseB ∧ shows (exec (.ldraw 7 0#64) State.reset) =
      some (FrameBuf.reset .six, true, some (Response.bare .badLength)) := by decide +kernel
theorem witness_GivenResponsesNeverChange :
    ∃ t, step ((State.reset.answer (Response.bare .ok)).present (bareWord 0b0110#4)) = .next t ∧
      t.rsps = [Response.bare .badCommand, Response.bare .ok] := ⟨_, rfl, rfl⟩
theorem witness_DefaultWritesTheDefaultFrame :
    (holding hardware rowA6bad false).cfg.crcCover = .six ∧ (holding cover5 rowA6bad false).cfg.crcCover = .five := by decide
theorem witness_UpdcrcStampsTheTrailer :
    ValidMeansMatching (holding hardware rowA6 true) ∧ (holding hardware rowA6 true).valid = true := by decide +kernel
theorem witness_RdrawCopiesTheFrameOut :
    (holding hardware rowA6 true).valid = true ∧ (holding hardware rowA6bad false).valid = false ∧ 7 < 8 ∧
    ScratchMeansValid (holding scratch rowA6 true) ∧ (holding scratch rowA6 true).cfg.decodeCommit = .scratch := by decide
theorem witness_EncoderResultsDependOnOperandsAndHeader :
    (holding hardware rowA6 true).cfg = (holding hardware rowB6 true).cfg ∧
    (holding hardware rowA6 true).f.hdr = (holding hardware rowB6 true).f.hdr ∧
    (holding hardware rowB6 true).f.hdr = 0xBEEF#16 := by decide
theorem witness_LdrawVerifiesAndCommits :
    (7 ≠ 8 ∧ 9 ≠ 8) ∧ (RawMatches hardware rowA6.frame64 ∧ ¬ RawMatches hardware rowA6bad.frame64) ∧
    (RawMatches scratch rowA6.frame64 ∧ ¬ RawMatches scratch rowA6bad.frame64) ∧
    State.reset.cfg.decodeCommit = .overwrite ∧ (State.resetWith scratch).cfg.decodeCommit = .scratch := by decide +kernel
theorem witness_ReceivedFramesAreLoaded :
    RawMatches State.reset.cfg (frameWordA 0xDA99#16 ⟨true, false, 2#2, 0xABC#12, 0x1234#16⟩) ∧
    ¬ RawMatches State.reset.cfg (frameWordA 0xDA98#16 ⟨true, false, 2#2, 0xABC#12, 0x1234#16⟩) ∧
    RawMatches State.reset.cfg (frameWordB 0x61DE#16 ⟨true, false, 2#2, 0xABC#12, 0x1234#16⟩) ∧
    ¬ RawMatches State.reset.cfg (frameWordB 0xDA99#16 ⟨true, false, 2#2, 0xABC#12, 0x1234#16⟩) := by decide +kernel
theorem witness_ParseAReadsVariantA :
    (holding hardware rowA6 true).valid = true ∧ (holding hardware rowA6 true).cfg.regReadbackFix = false ∧
    (holding fixed rowA6 true).cfg.regReadbackFix = true ∧ (holding hardware rowA6bad false).valid = false := by decide
theorem witness_ParseBReadsVariantB :
    (holding hardware rowB6 true).valid = true ∧ (holding hardware rowA6bad false).valid = false := by decide
theorem witness_FillThenParseGivesTheFieldsBack :
    (State.resetWith fixed).cfg.crcCover = State.reset.cfg.crcCover := by decide
theorem witness_OneFlippedBitIsCaught :
    (0 < 64 ∧ 63 < 64 ∧ RawMatches State.reset.cfg rowA6.frame64 ∧ State.reset.cfg.crcCover = .six) ∧
    (39 < 40 ∧ 48 ≤ 48 ∧ 40 ≤ 40 ∧ 47 < 48) ∧ (State.resetWith cover5).cfg.crcCover = .five ∧
    RawMatches (State.resetWith cover5).cfg (wire 0xEF 0xBE 0x34 0x12 0xBC 0xAA 0xAE 0xF9).frame64 := by decide +kernel
theorem witness_ReservedWordsAnswerBadCommand : (bareWord 0b1100#4).cmdOp ∈ reservedWords := by decide
theorem witness_WhichErrorACommandReports :
    (bareWord 0b0110#4).cmdOp ∈ reservedWords ∧
    (encode (.ldraw 7 0#64)).cmdOp = 0b0100#4 ∧ (encode (.ldraw 7 0#64)).opRawLen ≠ 8 ∧
    (encode (.ldraw 8 rowA6bad.frame64)).opRawLen = 8 ∧
    ¬ RawMatches State.reset.cfg (encode (.ldraw 8 rowA6bad.frame64)).opRaw ∧
    (holding hardware rowA6bad false).valid = false ∧ (encode .parseB).cmdOp = 0b1101#4 := by decide +kernel
theorem witness_BytesEachCommandMayChange :
    (encode .updcrc).cmdOp = 0b0010#4 ∧ (encode .updcrc).cmdOp ≠ 0b0000#4 ∧ (encode .updcrc).cmdOp ≠ 0b0100#4 ∧
    (encode .rdraw).cmdOp = 0b0011#4 ∧ (encode .reserved1100).cmdOp ∈ reservedWords := by decide
theorem witness_RecoveryFromRejectedBytes :
    (holding hardware rowA6bad false).valid = false ∧ RawMatches hardware rowA6.frame64 ∧
    ¬ RawMatches hardware rowA6bad.frame64 ∧ hardware.decodeCommit = .overwrite := by decide +kernel
theorem witness_RejectedBytesCannotBeRead : (holding hardware rowA6bad false).valid = false := by decide

end Sys2Proof.Tests
end

section
/-! The named views of the frame buffer as numbers and as byte lanes of `FRAME64` (spec/10_state.md R14,
spec/20_memory.md R29). -/

namespace Sys2Proof.Machine.FrameBuf

/-- A 16-bit view is its lower byte plus 256 times its upper byte (R29). -/
theorem append_bytes_toNat (hi lo : Byte) : (hi ++ lo : BitVec 16).toNat = lo.toNat + 256 * hi.toNat := by
  rw [append_toNat]
  omega

theorem hdr_toNat (f : FrameBuf) : f.hdr.toNat = f.b0.toNat + 256 * f.b1.toNat := by
  rw [hdr_eq, append_bytes_toNat]

theorem seg0_toNat (f : FrameBuf) : f.seg0.toNat = f.b2.toNat + 256 * f.b3.toNat := by
  rw [seg0_eq, append_bytes_toNat]

theorem seg1_toNat (f : FrameBuf) : f.seg1.toNat = f.b4.toNat + 256 * f.b5.toNat := by
  rw [seg1_eq, append_bytes_toNat]

theorem crcf_toNat (f : FrameBuf) : f.crcf.toNat = f.b6.toNat + 256 * f.b7.toNat := by
  rw [crcf_eq, append_bytes_toNat]

theorem pay_toNat (f : FrameBuf) :
    f.pay.toNat = f.b2.toNat + 256 * f.b3.toNat + 65536 * f.b4.toNat + 16777216 * f.b5.toNat := by
  rw [pay_eq, append_toNat, seg0_toNat, seg1_toNat]
  omega

/-- `frame64_eq` with the two segments joined to `PAY` (R14). -/
theorem frame64_eq_crcf_pay_hdr (f : FrameBuf) : f.frame64 = (f.crcf ++ f.pay ++ f.hdr : BitVec 64) := by
  rw [frame64_eq, pay_eq]
  apply BitVec.eq_of_toNat_eq
  simp only [append_toNat]
  omega

theorem get_ofRaw (raw : Raw) {i : Nat} (hi : i < 8) : (ofRaw raw).get i = rawByte raw i := by
  interval_cases i <;> rfl

/-- `F[i]` is byte lane `i` of `FRAME64`: the buffer is the one its own `FRAME64` carries (R42). -/
theorem get_eq_rawByte_frame64 (f : FrameBuf) {i : Nat} (hi : i < 8) : f.get i = rawByte f.frame64 i := by
  rw [← get_ofRaw f.frame64 hi, ofRaw_frame64]

theorem reset_b0 (k : CrcCover) : (reset k).b0 = 0xEF#8 := by cases k <;> rfl
theorem reset_b1 (k : CrcCover) : (reset k).b1 = 0xBE#8 := by cases k <;> rfl

/-- The payload of the reset frame is zero for both covers (R25). -/
theorem reset_pay (k : CrcCover) : (reset k).pay = 0#32 := by cases k <;> rfl

end Sys2Proof.Machine.FrameBuf

open Sys2Proof Sys2Proof.Machine

theorem Sys2Proof.Machine.State.resetWith_f_of_cover {c : Config} {k : CrcCover} (h : c.crcCover = k) :
    (State.resetWith c).f = FrameBuf.reset k := congrArg FrameBuf.reset h

/-- Settles O10: each view by its bytes, the byte lanes because the buffer is the one `FRAME64` carries. -/
theorem viewsAreLittleEndian : Obligations.ViewsAreLittleEndian := fun f =>
  ⟨f.hdr_toNat, f.pay_toNat, f.seg0_toNat, f.seg1_toNat, f.crcf_toNat, f.frame64_eq_crcf_pay_hdr, f.pay_eq,
    fun _ hi => f.get_eq_rawByte_frame64 hi⟩

/-- Settles O21: header and payload whatever the cover, the trailer by `CRC_COVER`, and this hardware's frame as one
value. -/
theorem resetStateHasTheTabulatedValues : Obligations.ResetStateHasTheTabulatedValues := by
  refine ⟨fun c => ⟨FrameBuf.reset_b0 _, FrameBuf.reset_b1 _, FrameBuf.reset_pay _, fun six => ?_, fun five => ?_,
    rfl, rfl, rfl⟩, by decide, rfl⟩
  · rw [State.resetWith_f_of_cover six]
    exact ⟨rfl, rfl⟩
  · rw [State.resetWith_f_of_cover five]
    exact ⟨rfl, rfl⟩
end

section
/-! The operands of `FILL` masked to their fields and the access flag derived from them (spec/30_encoding.md R47, R48). -/

namespace Sys2Proof.Machine

@[simp] theorem rankField_toNat (r : Nat) : (rankField r).toNat = r % 4 := by
  rw [rankField, BitVec.toNat_ofNat]
  exact Nat.mod_mod r 4

@[simp] theorem regField_toNat (g : Nat) : (regField g).toNat = g % 4096 := by
  rw [regField, BitVec.toNat_ofNat]
  exact Nat.mod_mod g 4096

@[simp] theorem dataField_toNat (d : Nat) : (dataField d).toNat = d % 65536 := by
  rw [dataField, BitVec.toNat_ofNat]
  exact Nat.mod_mod d 65536

/-- Operands that were reduced before they are presented give the same fields (R47). -/
theorem assemble_mod (w : Bool) (r g d : Nat) :
    assemble w (r % 4) (g % 4096) (d % 65536) = assemble w r g d := by
  simp only [assemble, rankField, regField, dataField, Nat.mod_mod]

theorem accessFlag_eq_true_iff (data : Half) : accessFlag data = true ↔ data.toNat ≠ 0 := by
  rw [accessFlag, bne_iff_ne, ← BitVec.toNat_ne_iff_ne]
  rfl

theorem assemble_acc_eq_true_iff (w : Bool) (r g d : Nat) : (assemble w r g d).acc = true ↔ d % 65536 ≠ 0 := by
  rw [← dataField_toNat]
  exact accessFlag_eq_true_iff (dataField d)

/-- The bit that stands above everything else in the number. -/
theorem getLsbD_eq_of_toNat_eq {n i lower : Nat} {x : BitVec n} {b : Bool} (hl : lower < 2 ^ i)
    (h : x.toNat = b.toNat * 2 ^ i + lower) : x.getLsbD i = b := by
  have digit : x.toNat / 2 ^ i % 2 ^ 1 = b.toNat :=
    slice_of_sum 0 lower (Bool.toNat_lt b) hl (by rw [h, Nat.zero_mul, Nat.zero_add])
  rw [Nat.pow_one] at digit
  rw [getLsbD_eq_decide, digit]
  cases b <;> rfl

/-- `ACC` is the top bit of the control word (R44). -/
theorem ctrl16_getLsbD_acc (x : Fields) : (ctrl16 x).getLsbD 15 = x.acc := by
  have wr_lt := Bool.toNat_lt x.wr
  apply getLsbD_eq_of_toNat_eq (lower := x.wr.toNat * 2 ^ 14 + x.rank.toNat * 2 ^ 12 + x.reg.toNat)
  · omega
  · rw [ctrl16_toNat]
    omega

/-- `ACC` is the top bit of the Variant A payload (R43). -/
theorem payA_getLsbD_acc (x : Fields) : (payA x).getLsbD 31 = x.acc := by
  have wr_lt := Bool.toNat_lt x.wr
  apply getLsbD_eq_of_toNat_eq
    (lower := x.wr.toNat * 2 ^ 30 + x.rank.toNat * 2 ^ 28 + x.reg.toNat * 2 ^ 16 + x.data.toNat)
  · omega
  · rw [payA_toNat]
    omega

/-- `FILL.A` answers `OK` from every state (R47, R69). -/
theorem exec_fillA_answers_ok (w : Bool) (r g d : Nat) (s : State) :
    ∃ t, exec (.fillA w r g d) s = .next t ∧ t.rsps = Response.bare .ok :: s.rsps :=
  ⟨_, fillPayloadA_eq (assemble w r g d) s, rfl⟩

/-- `FILL.B` answers `OK` from every state (R47, R70). -/
theorem exec_fillB_answers_ok (w : Bool) (r g d : Nat) (s : State) :
    ∃ t, exec (.fillB w r g d) s = .next t ∧ t.rsps = Response.bare .ok :: s.rsps :=
  ⟨_, fillPayloadB_eq (assemble w r g d) s, rfl⟩

end Sys2Proof.Machine

open Sys2Proof Sys2Proof.Machine

/-- Settles O6: each field is the operand's remainder, and both forms of `FILL` answer `OK` whatever the fields. -/
theorem operandsAreMaskedToTheirFields : Obligations.OperandsAreMaskedToTheirFields := by
  intro w r g d
  refine ⟨rankField_toNat r, regField_toNat g, dataField_toNat d, rfl, assemble_mod w r g d, fun s => ?_⟩
  obtain ⟨t, runA, okA⟩ := exec_fillA_answers_ok w r g d s
  obtain ⟨u, runB, okB⟩ := exec_fillB_answers_ok w r g d s
  exact ⟨t, u, runA, okA, runB, okB⟩

/-- Settles O7: the top bit of either layout is the field `ACC`, which compares the masked data with 0. -/
theorem accessFlagIsDerivedFromMaskedData : Obligations.AccessFlagIsDerivedFromMaskedData := by
  intro w r g d
  rw [payA_getLsbD_acc, seg0B, ctrl16_getLsbD_acc]
  have flag := assemble_acc_eq_true_iff w r g d
  exact ⟨flag, flag, flag⟩

/-- Settles O1: one equation of `decode` per command word. -/
theorem commandWordsDecodeAsMapped : Obligations.CommandWordsDecodeAsMapped := fun w r g d n raw =>
  ⟨decode_0000 w r g d n raw, decode_0001 w r g d n raw, decode_1001 w r g d n raw, decode_0010 w r g d n raw,
    decode_0011 w r g d n raw, decode_0100 w r g d n raw, decode_0101 w r g d n raw, decode_1101 w r g d n raw,
    decode_0110 w r g d n raw, decode_0111 w r g d n raw, decode_1110 w r g d n raw, decode_1111 w r g d n raw,
    decode_1000 w r g d n raw, decode_1010 w r g d n raw, decode_1011 w r g d n raw, decode_1100 w r g d n raw⟩
end

section
/-! The micro-operations of `CRCGEN` one by one and the bytes `FRAMECRC` covers (spec/40_crc_generator.md R57 to R61). -/

namespace Sys2Proof.Machine

/-- The taps of the shift register: the polynomial `x^16 + x^12 + x^5 + 1` without its leading term (R8, R59). -/
theorem crcPoly_getLsbD {j : Nat} (hj : j < 16) : crcPoly.getLsbD j = decide (j = 0 ∨ j = 5 ∨ j = 12) := by
  interval_cases j <;> rfl

/-- One bit of `CRC.BIT`: the bit below it, with the feedback bit added at the taps. -/
theorem crcBitStep_getLsbD (c : Half) (d : Bool) {j : Nat} (hj : j < 16) :
    (crcBitStep c d).getLsbD j =
      ((!decide (j < 1) && c.getLsbD (j - 1)) ^^ ((c.getLsbD 15 ^^ d) && decide (j = 0 ∨ j = 5 ∨ j = 12))) := by
  have shifted : (c <<< 1).getLsbD j = (!decide (j < 1) && c.getLsbD (j - 1)) := by
    rw [BitVec.getLsbD_shiftLeft, decide_eq_true hj, Bool.true_and]
  unfold crcBitStep
  split
  case isTrue feedback => rw [BitVec.getLsbD_xor, shifted, crcPoly_getLsbD hj, feedback, Bool.true_and]
  case isFalse feedback => rw [shifted, Bool.eq_false_of_not_eq_true feedback, Bool.false_and, Bool.xor_false]

/-- The feedback bit enters at the bottom. -/
theorem crcBitStep_getLsbD_zero (c : Half) (d : Bool) : (crcBitStep c d).getLsbD 0 = (c.getLsbD 15 ^^ d) := by
  rw [crcBitStep_getLsbD c d (by decide)]
  simp

/-- The feedback bit is added at the two inner taps. -/
theorem crcBitStep_getLsbD_tap (c : Half) (d : Bool) {j : Nat} (tap : j = 5 ∨ j = 12) :
    (crcBitStep c d).getLsbD j = (c.getLsbD (j - 1) ^^ (c.getLsbD 15 ^^ d)) := by
  have inside : j < 16 := by omega
  have pos : j ≠ 0 := by omega
  simp [crcBitStep_getLsbD c d inside, pos, tap]

/-- Every other bit moves up by one. -/
theorem crcBitStep_getLsbD_of_not_tap (c : Half) (d : Bool) {j : Nat} (hj : j < 16) (pos : j ≠ 0)
    (noTap : ¬(j = 5 ∨ j = 12)) : (crcBitStep c d).getLsbD j = c.getLsbD (j - 1) := by
  simp [crcBitStep_getLsbD c d hj, pos, noTap]

/-- A byte enters most significant bit first, because `CRC_REFIN` is false (R8, R60). -/
theorem byteBits_eq (b : Byte) :
    byteBits b =
      [b.getLsbD 7, b.getLsbD 6, b.getLsbD 5, b.getLsbD 4, b.getLsbD 3, b.getLsbD 2, b.getLsbD 1, b.getLsbD 0] := rfl

/-- `CRC.FINAL` inverts every bit and reflects none (R61). -/
theorem crcFinal_eq (s : State) : crcFinal s = s.creg ^^^ 0xFFFF#16 := rfl

/-- `CRC.INIT`, then the bytes, then `CRC.FINAL` is `CRC16` of the bytes, whatever the state held (R56, R58). -/
theorem crcFinal_foldl_crcByte_crcInit (s : State) (bytes : List Byte) :
    crcFinal (bytes.foldl crcByte (crcInit s)) = crc16 bytes := by
  rw [foldl_crcByte]
  rfl

theorem frameCrcOf_six {c : Config} (six : c.crcCover = .six) (f : FrameBuf) :
    frameCrcOf c f = crc16 [f.b0, f.b1, f.b2, f.b3, f.b4, f.b5] := by
  rw [frameCrcOf, coveredBytes, six]
  rfl

theorem frameCrcOf_five {c : Config} (five : c.crcCover = .five) (f : FrameBuf) :
    frameCrcOf c f = crc16 [f.b0, f.b1, f.b2, f.b3, f.b4] := by
  rw [frameCrcOf, coveredBytes, five]
  rfl

/-- Replacing the two trailer bytes is a write of the trailer. -/
theorem FrameBuf.with_trailer_eq_memWrite (f : FrameBuf) (x y : Byte) :
    { f with b6 := x, b7 := y } = f.memWrite 6 2 (y ++ x) := by
  rw [memWrite_trailer, extract_append_low, extract_append_high]

theorem frameCrcOf_with_trailer (c : Config) (f : FrameBuf) (x y : Byte) :
    frameCrcOf c { f with b6 := x, b7 := y } = frameCrcOf c f := by
  rw [FrameBuf.with_trailer_eq_memWrite, frameCrcOf_memWrite_trailer]

end Sys2Proof.Machine

open Sys2Proof Sys2Proof.Machine

/-- Settles O12: the bit at the bottom, the two inner taps and the bits that only move, one lemma each. -/
theorem crcBitIsTheShiftRegister : Obligations.CrcBitIsTheShiftRegister := by
  intro s d
  refine ⟨fun j hj => ?_, rfl, fun before zero => ?_⟩
  · rw [crcBit_creg]
    split_ifs with bottom tap
    · rw [bottom, crcBitStep_getLsbD_zero]
    · exact crcBitStep_getLsbD_tap s.creg d tap
    · exact crcBitStep_getLsbD_of_not_tap s.creg d hj bottom tap
  · rw [crcBit_creg, before, zero]
    decide

/-- Settles O15: `frameCrc_eq` reduces it to the value `frameCrcOf`, whose bytes are listed once per cover. -/
theorem frameCrcCoversTheLeadingBytes : Obligations.FrameCrcCoversTheLeadingBytes := by
  refine ⟨fun s => ?_, fun c => ?_⟩
  · simp only [frameCrc_eq]
    exact ⟨fun six => frameCrcOf_six six s.f, fun five => frameCrcOf_five five s.f, rfl, rfl,
      frameCrcOf_with_trailer s.cfg s.f⟩
  · rw [frameCrc_eq]
    refine ⟨fun six => ?_, fun five => ?_⟩
    · rw [State.resetWith_f_of_cover six]
      exact (frameCrcOf_six six _).trans crc16_reset_six
    · rw [State.resetWith_f_of_cover five]
      exact (frameCrcOf_five five _).trans crc16_reset_five

/-- Settles O11: both computations are `CRC16` of the same bytes, so the state before them does not matter. -/
theorem crcInitAndFinal : Obligations.CrcInitAndFinal := fun s =>
  have inverted : 0xA1BD#16 ^^^ 0xFFFF#16 = 0x5E42#16 := by decide
  ⟨rfl, crcFinal_eq s, (crcFinal_eq _).trans inverted, fun s' bytes =>
    (crcFinal_foldl_crcByte_crcInit s bytes).trans (crcFinal_foldl_crcByte_crcInit s' bytes).symm⟩

/-- Settles O13: `CRC.BYTE` folds `CRC.BIT` over `byteBits`, which lists the bits from 7 down to 0. -/
theorem crcByteIsEightBitsMsbFirst : Obligations.CrcByteIsEightBitsMsbFirst := by
  intro s b
  rw [crcByte, byteBits_eq]
  rfl
end

section
/-! What the encoder commands do (spec/41_frame_encoder.md R68 to R73): every one that writes the frame answers with the
same state, `State.sealedWith`, but for the bytes it put in front of the trailer. -/

namespace Sys2Proof.Machine

namespace FrameBuf

/-- The payload read back after it was written. -/
@[simp] theorem pay_memWrite_payload (f : FrameBuf) (v : BitVec 32) : (f.memWrite 2 4 v).pay = v := by
  apply BitVec.eq_of_toNat_eq
  rw [memWrite_payload, pay_toNat]
  simp only [extract_toNat]
  omega

/-- The segment read back after it was written, with the other segment written behind it. -/
@[simp] theorem seg0_memWrite_segments (f : FrameBuf) (v u : BitVec 16) :
    ((f.memWrite 2 2 v).memWrite 4 2 u).seg0 = v := by
  rw [memWrite_seg1, memWrite_seg0, seg0_eq]
  exact append_extract v

/-- The segment read back after it was written. -/
@[simp] theorem seg1_memWrite_seg1 (f : FrameBuf) (u : BitVec 16) : (f.memWrite 4 2 u).seg1 = u := by
  rw [memWrite_seg1, seg1_eq]
  exact append_extract u

/-- Writing the trailer that stands there already changes nothing. -/
theorem memWrite_trailer_crcf (f : FrameBuf) : f.memWrite 6 2 f.crcf = f := by
  rw [memWrite_trailer, crcf_eq, extract_append_low, extract_append_high]

end FrameBuf

/-! The stamped frame: everything below the trailer stays. -/

theorem stampedBuf_get (c : Config) (f : FrameBuf) {i : Nat} (below : i < 6) : (stampedBuf c f).get i = f.get i := by
  rw [stampedBuf, FrameBuf.memWrite_two, FrameBuf.get_set_other _ (by omega), FrameBuf.get_set_other _ (by omega)]

@[simp] theorem stampedBuf_seg0 (c : Config) (f : FrameBuf) : (stampedBuf c f).seg0 = f.seg0 := by
  simp only [FrameBuf.seg0_eq, stampedBuf_b2, stampedBuf_b3]

@[simp] theorem stampedBuf_seg1 (c : Config) (f : FrameBuf) : (stampedBuf c f).seg1 = f.seg1 := by
  simp only [FrameBuf.seg1_eq, stampedBuf_b4, stampedBuf_b5]

@[simp] theorem stampedBuf_pay (c : Config) (f : FrameBuf) : (stampedBuf c f).pay = f.pay := by
  simp only [FrameBuf.pay_eq, stampedBuf_seg0, stampedBuf_seg1]

/-- The trailer of a stamped frame, as its two bytes, is the CRC of the leading bytes of that frame (R65). -/
theorem stampedBuf_trailer (c : Config) (f : FrameBuf) :
    ((stampedBuf c f).b7 ++ (stampedBuf c f).b6 : BitVec 16) = crc16 ((stampedBuf c f).toList.take c.crcCover.bytes) := by
  rw [← FrameBuf.crcf_eq, stampedBuf_crcf]
  rfl

/-- A frame whose trailer matches is stamped with what it holds (R72). -/
theorem stampedBuf_eq_self {c : Config} {f : FrameBuf} (matching : f.crcf = frameCrcOf c f) : stampedBuf c f = f := by
  rw [stampedBuf, ← matching, FrameBuf.memWrite_trailer_crcf]

/-! The one state the commands `DEFAULT`, `FILL` and `UPDCRC` answer with. -/

/-- The state a frame-writing command answers with, `f` the frame before its trailer is stamped (R68 to R70, R72). -/
def State.sealedWith (s : State) (f : FrameBuf) : State :=
  (((s.drawCreg).setF (stampedBuf s.cfg f)).setValid true).answer (Response.bare .ok)

@[simp] theorem State.sealedWith_f (s : State) (f : FrameBuf) : (s.sealedWith f).f = stampedBuf s.cfg f := rfl

/-- What `sealedWith` does outside the frame's leading bytes: the trailer, `VALID`, the response, and nothing around. -/
theorem State.sealedWith_effect (s : State) (f : FrameBuf) :
    ((s.sealedWith f).f.b7 ++ (s.sealedWith f).f.b6 : BitVec 16) =
      crc16 ((s.sealedWith f).f.toList.take s.cfg.crcCover.bytes) ∧
    (s.sealedWith f).valid = true ∧ (s.sealedWith f).rsps = Response.bare .ok :: s.rsps ∧
    KeepsSurroundings s (s.sealedWith f) :=
  ⟨stampedBuf_trailer s.cfg f, rfl, rfl, rfl, rfl, rfl⟩

/-- `DEFAULT` writes header and payload whatever they were (R68). -/
theorem exec_defaultFrame (s : State) : exec .defaultFrame s = .next (s.sealedWith (blankBuf s.f)) := by
  show respondOk (sealFrame (s.setF (blankBuf s.f))) = _
  rw [sealFrame_eq]
  rfl

/-- `FILL.A` writes the payload (R69). -/
theorem exec_fillA (w : Bool) (r g d : Nat) (s : State) :
    exec (.fillA w r g d) s = .next (s.sealedWith (s.f.memWrite 2 4 (payA (assemble w r g d)))) :=
  fillPayloadA_eq (assemble w r g d) s

/-- `FILL.B` writes the two segments (R70). -/
theorem exec_fillB (w : Bool) (r g d : Nat) (s : State) :
    exec (.fillB w r g d) s =
      .next (s.sealedWith ((s.f.memWrite 2 2 (seg0B (assemble w r g d))).memWrite 4 2 (seg1B (assemble w r g d)))) :=
  fillPayloadB_eq (assemble w r g d) s

/-- `UPDCRC` writes nothing in front of the trailer (R72). -/
theorem exec_updcrc (s : State) : exec .updcrc s = .next (s.sealedWith s.f) := by
  show respondOk (sealFrame s) = _
  rw [sealFrame_eq]
  rfl

/-- `FILLE.A` is `FILL.A` with `data = 0` (R71). -/
theorem exec_filleA (w : Bool) (r g : Nat) (s : State) : exec (.filleA w r g) s = exec (.fillA w r g 0) s := rfl

/-- `FILLE.B` is `FILL.B` with `data = 0` (R71). -/
theorem exec_filleB (w : Bool) (r g : Nat) (s : State) : exec (.filleB w r g) s = exec (.fillB w r g 0) s := rfl

/-! The packed operands as numbers (R43, R44, R47, R48). -/

theorem assemble_acc_toNat (w : Bool) (r g d : Nat) :
    (assemble w r g d).acc.toNat = if d % 65536 ≠ 0 then 1 else 0 := by
  have flag := assemble_acc_eq_true_iff w r g d
  split
  case isTrue nonzero => rw [flag.2 nonzero, Bool.toNat_true]
  case isFalse zero => rw [Bool.eq_false_of_not_eq_true (mt flag.1 zero), Bool.toNat_false]

theorem payA_assemble_toNat (w : Bool) (r g d : Nat) :
    (payA (assemble w r g d)).toNat =
      (if d % 65536 ≠ 0 then 1 else 0) * 2 ^ 31 + w.toNat * 2 ^ 30 + r % 4 * 2 ^ 28 + g % 4096 * 2 ^ 16 + d % 65536 := by
  rw [payA_toNat, assemble_acc_toNat, ← rankField_toNat r, ← regField_toNat g, ← dataField_toNat d]
  rfl

theorem seg0B_assemble_toNat (w : Bool) (r g d : Nat) :
    (seg0B (assemble w r g d)).toNat =
      (if d % 65536 ≠ 0 then 1 else 0) * 2 ^ 15 + w.toNat * 2 ^ 14 + r % 4 * 2 ^ 12 + g % 4096 := by
  rw [seg0B, ctrl16_toNat, assemble_acc_toNat, ← rankField_toNat r, ← regField_toNat g]
  rfl

/-! `RDRAW` at the port (R73). -/

theorem exec_rdraw_valid {s : State} (valid : s.valid = true) :
    exec .rdraw s = .next (s.answer { Response.bare .ok with raw := s.f.frame64 }) := execRdraw_valid s valid

theorem exec_rdraw_invalid {s : State} (invalid : s.valid = false) :
    exec .rdraw s = .next (s.answer (Response.bare .crcMismatch)) := execRdraw_invalid s invalid

end Sys2Proof.Machine

open Sys2Proof Sys2Proof.Machine

/-- Settles O33: the sealed frame is the reset frame of the instance's cover, whose bytes are literals. -/
theorem defaultWritesTheDefaultFrame : Obligations.DefaultWritesTheDefaultFrame := by
  intro s
  obtain ⟨-, effect⟩ := s.sealedWith_effect (blankBuf s.f)
  refine ⟨_, exec_defaultFrame s, ?_⟩
  rw [State.sealedWith_f, stampedBuf_blankBuf]
  cases s.cfg.crcCover
  case six => exact ⟨rfl, rfl, rfl, rfl, rfl, rfl, fun _ => ⟨rfl, rfl⟩, nofun, effect⟩
  case five => exact ⟨rfl, rfl, rfl, rfl, rfl, rfl, nofun, fun _ => ⟨rfl, rfl⟩, effect⟩

/-- Settles O34: the payload written survives the stamping of the trailer and is the packed operands as a number. -/
theorem fillAPacksVariantA : Obligations.FillAPacksVariantA := by
  intro w r g d s
  refine ⟨_, exec_fillA w r g d s, ?_, ?_, ?_, s.sealedWith_effect _⟩
  · rw [State.sealedWith_f, stampedBuf_b0, FrameBuf.memWrite_payload]
  · rw [State.sealedWith_f, stampedBuf_b1, FrameBuf.memWrite_payload]
  · rw [State.sealedWith_f, stampedBuf_pay, FrameBuf.pay_memWrite_payload, payA_assemble_toNat]

/-- Settles O35: the two segments written survive the stamping of the trailer and are the packed operands as numbers. -/
theorem fillBPacksVariantB : Obligations.FillBPacksVariantB := by
  intro w r g d s
  refine ⟨_, exec_fillB w r g d s, ?_, ?_, ?_, ?_, s.sealedWith_effect _⟩
  · rw [State.sealedWith_f, stampedBuf_b0, FrameBuf.memWrite_seg1, FrameBuf.memWrite_seg0]
  · rw [State.sealedWith_f, stampedBuf_b1, FrameBuf.memWrite_seg1, FrameBuf.memWrite_seg0]
  · rw [State.sealedWith_f, stampedBuf_seg0, FrameBuf.seg0_memWrite_segments, seg0B_assemble_toNat]
  · rw [State.sealedWith_f, stampedBuf_seg1, FrameBuf.seg1_memWrite_seg1]
    exact dataField_toNat d

/-- Settles O36: the two commands are `FILL` with `data = 0`, so O34 and O35 give the effect, the terms of `ACC` and
`DATA` vanishing. -/
theorem filleIsFillWithZeroData : Obligations.FilleIsFillWithZeroData := by
  intro w r g s
  obtain ⟨t, runA, b0A, b1A, pay, effectA⟩ := fillAPacksVariantA w r g 0 s
  obtain ⟨u, runB, b0B, b1B, seg0, seg1, effectB⟩ := fillBPacksVariantB w r g 0 s
  refine ⟨rfl, rfl, ⟨t, (exec_filleA w r g s).trans runA, runA, b0A, b1A, ?_, effectA⟩,
    u, (exec_filleB w r g s).trans runB, runB, b0B, b1B, ?_, BitVec.eq_of_toNat_eq seg1, effectB⟩
  · simpa using pay
  · simpa using seg0

/-- Settles O37: only the trailer is stamped, over bytes the stamping leaves alone; a matching trailer is stamped with
itself. -/
theorem updcrcStampsTheTrailer : Obligations.UpdcrcStampsTheTrailer := by
  intro s
  obtain ⟨-, valid, rsps, around⟩ := s.sealedWith_effect s.f
  refine ⟨_, exec_updcrc s, fun i below => stampedBuf_get s.cfg s.f below, ?_, valid, rsps, around,
    fun matching isValid => stampedBuf_eq_self (matching.1 isValid)⟩
  rw [← FrameBuf.crcf_eq]
  exact FrameBuf.crcf_memWrite_trailer s.f (frameCrcOf s.cfg s.f)

/-- Settles O38: the response while `VALID = 1` is `FRAME64`, whose byte lanes are the bytes of `F`; under `SCRATCH` that
is the only case. -/
theorem rdrawCopiesTheFrameOut : Obligations.RdrawCopiesTheFrameOut := fun s =>
  ⟨fun valid => ⟨s.f.frame64, exec_rdraw_valid valid, fun _ hi => (s.f.get_eq_rawByte_frame64 hi).symm⟩,
    exec_rdraw_invalid, fun keeps scratch => ⟨s.f.frame64, exec_rdraw_valid (keeps scratch)⟩⟩
end

section
/-! The decoder family (spec/42_frame_decoder.md R76 to R79): what `UNPACK` reads, what `PARSE` answers with, and what
`LDRAW` leaves for a buffer whose trailer matches and for one whose trailer differs. -/

namespace Sys2Proof.Machine

/-! `UNPACK` field by field (R77). -/

section Unpack

variable (ctrl data : Half) (mask : BitVec 12)

theorem unpack_rank_toNat : (unpack ctrl data mask).rank.toNat = ctrl.toNat / 4096 % 4 := by
  have field : (unpack ctrl data mask).rank.toNat = ((ctrl.toNat >>> 12) &&& 3) % 4 := rfl
  rw [field, Nat.and_two_pow_sub_one_eq_mod _ 2, Nat.mod_mod, Nat.shiftRight_eq_div_pow]

theorem unpack_reg : (unpack ctrl data mask).reg = ctrl.extractLsb' 0 12 &&& mask := by
  have low : ctrl.setWidth 12 = ctrl.extractLsb' 0 12 := BitVec.setWidth_eq_extractLsb' (by decide)
  rw [unpack, low]

/-- Under `REG_MASK` the register field is the whole field. -/
theorem unpack_regMask_reg_toNat : (unpack ctrl data regMask).reg.toNat = ctrl.toNat % 4096 := by
  have full : regMask = BitVec.allOnes 12 := rfl
  rw [unpack, full, BitVec.and_allOnes, BitVec.toNat_setWidth]

/-- Under `RANK_MASK` only the two low bits of the register field are left. -/
theorem unpack_rankMask_reg_toNat : (unpack ctrl data rankMask).reg.toNat = ctrl.toNat % 4 := by
  have field : (unpack ctrl data rankMask).reg.toNat = ctrl.toNat % 4096 &&& 3 := rfl
  rw [field, Nat.and_two_pow_sub_one_eq_mod _ 2]
  omega

end Unpack

/-- `WR` is the bit below `ACC` in the control word (R44). -/
theorem ctrl16_getLsbD_wr (x : Fields) : (ctrl16 x).getLsbD 14 = x.wr := by
  simp only [ctrl16, BitVec.getLsbD_append]
  simp

/-- Unpacking is the inverse of packing (R77). -/
theorem unpack_ctrl16 (x : Fields) : unpack (ctrl16 x) x.data regMask = x := by
  have rank : (unpack (ctrl16 x) x.data regMask).rank = x.rank := by
    apply BitVec.eq_of_toNat_eq
    have wr_lt := Bool.toNat_lt x.wr
    rw [unpack_rank_toNat, ctrl16_toNat]
    omega
  have reg : (unpack (ctrl16 x) x.data regMask).reg = x.reg := by
    apply BitVec.eq_of_toNat_eq
    rw [unpack_regMask_reg_toNat, ctrl16_toNat]
    omega
  calc unpack (ctrl16 x) x.data regMask
      = ⟨(ctrl16 x).getLsbD 15, (ctrl16 x).getLsbD 14, (unpack (ctrl16 x) x.data regMask).rank,
          (unpack (ctrl16 x) x.data regMask).reg, x.data⟩ := rfl
    _ = x := by rw [ctrl16_getLsbD_acc, ctrl16_getLsbD_wr, rank, reg]

/-! `PARSE` at the port (R78, R79). -/

/-- The fields `PARSE.A` answers with. -/
def parsedA (s : State) : Fields :=
  unpack (s.f.pay.extractLsb' 16 16) (s.f.pay.extractLsb' 0 16) (readbackMaskA s.cfg)

theorem exec_parseA_valid {s : State} (valid : s.valid = true) :
    exec .parseA s = .next (s.answer (Response.ofFields (parsedA s))) := execParseA_valid s valid

theorem exec_parseA_invalid {s : State} (invalid : s.valid = false) :
    exec .parseA s = .next (s.answer (Response.bare .crcMismatch)) := execParseA_invalid s invalid

theorem exec_parseB_valid {s : State} (valid : s.valid = true) :
    exec .parseB s = .next (s.answer (Response.ofFields (unpack s.f.seg0 s.f.seg1 regMask))) := execParseB_valid s valid

theorem exec_parseB_invalid {s : State} (invalid : s.valid = false) :
    exec .parseB s = .next (s.answer (Response.bare .crcMismatch)) := execParseB_invalid s invalid

/-- The control word of a Variant A frame is the upper half of its payload (R43). -/
theorem parsedA_acc (s : State) : (parsedA s).acc = s.f.pay.getLsbD 31 := by
  simp [parsedA, unpack]

theorem parsedA_wr (s : State) : (parsedA s).wr = s.f.pay.getLsbD 30 := by
  simp [parsedA, unpack]

theorem parsedA_rank_toNat (s : State) : (parsedA s).rank.toNat = s.f.pay.toNat / 2 ^ 28 % 4 := by
  rw [parsedA, unpack_rank_toNat, extract_toNat]
  omega

theorem parsedA_data_toNat (s : State) : (parsedA s).data.toNat = s.f.pay.toNat % 65536 := by
  have field : (parsedA s).data = s.f.pay.extractLsb' 0 16 := rfl
  rw [field, extract_toNat]
  omega

/-- With the defective read-back only the low two bits of the register field are left (R78). -/
theorem parsedA_reg_toNat_of_not_fixed {s : State} (defective : s.cfg.regReadbackFix = false) :
    (parsedA s).reg.toNat = s.f.pay.toNat / 2 ^ 16 % 4 := by
  have mask : readbackMaskA s.cfg = rankMask := if_neg (by rw [defective]; decide)
  rw [parsedA, mask, unpack_rankMask_reg_toNat, extract_toNat]
  omega

/-- With the read-back fixed the register field is whole (R78). -/
theorem parsedA_reg_toNat_of_fixed {s : State} (fixed : s.cfg.regReadbackFix = true) :
    (parsedA s).reg.toNat = s.f.pay.toNat / 2 ^ 16 % 4096 := by
  have mask : readbackMaskA s.cfg = regMask := if_pos fixed
  rw [parsedA, mask, unpack_regMask_reg_toNat, extract_toNat]
  omega

/-! `LDRAW` (R76). -/

/-- The covered bytes of a received buffer are the leading byte lanes of the port. -/
theorem coveredBytes_ofRaw (c : Config) (raw : Raw) :
    coveredBytes c (FrameBuf.ofRaw raw) = (List.range c.crcCover.bytes).map (rawByte raw) := by
  rw [coveredBytes]
  cases c.crcCover <;> rfl

/-- The received trailer matches exactly when the buffer's own CRC is the one it carries (R57, R76). -/
theorem rawMatches_iff (c : Config) (raw : Raw) :
    RawMatches c raw ↔ frameCrcOf c (FrameBuf.ofRaw raw) = (FrameBuf.ofRaw raw).crcf := by
  rw [frameCrcOf, coveredBytes_ofRaw, FrameBuf.crcf_eq]
  rfl

/-- Byte lane by byte lane, what a buffer holds that took the port's bytes (R52). -/
theorem FrameBuf.get_of_eq_ofRaw {f : FrameBuf} {raw : Raw} (received : f = ofRaw raw) :
    ∀ i, i < 8 → f.get i = raw.extractLsb' (8 * i) 8 := by
  intro i hi
  rw [received]
  exact get_ofRaw raw hi

/-- A length other than 8 changes nothing but the responses (R76, R85). -/
theorem exec_ldraw_of_length_ne {n : Nat} (wrong : n ≠ 8) (raw : Raw) (s : State) :
    exec (.ldraw n raw) s = .next (s.answer (Response.bare .badLength)) := by
  show loadBuffer n raw s = _
  rw [loadBuffer, if_neg wrong, raise_eq]

/-- What eight bytes with a matching trailer leave: the bytes in `F`, and in `SHADOW` under `SCRATCH` only (R76). -/
theorem loadBuffer_of_rawMatches {raw : Raw} {s : State} (matching : RawMatches s.cfg raw) :
    ∃ t, loadBuffer 8 raw s = .next t ∧ t.f = FrameBuf.ofRaw raw ∧ t.valid = true ∧
      t.rsps = Response.bare .ok :: s.rsps ∧ t.cfg = s.cfg ∧ t.events = s.events ∧
      (s.cfg.decodeCommit = .overwrite → t.shadow = s.shadow) ∧ (s.cfg.decodeCommit = .scratch → t.shadow = t.f) := by
  rw [rawMatches_iff] at matching
  obtain ⟨wrong, -⟩ | ⟨-, -, commit, run⟩ | ⟨-, -, commit, run⟩ | ⟨-, differing, -⟩ | ⟨-, differing, -⟩ :=
    loadBuffer_cases 8 raw s
  · exact absurd rfl wrong
  · exact ⟨_, run, rfl, rfl, rfl, rfl, rfl, fun _ => rfl, by simp [commit]⟩
  · exact ⟨_, run, rfl, rfl, rfl, rfl, rfl, by simp [commit], fun _ => rfl⟩
  · exact absurd matching differing
  · exact absurd matching differing

/-- What eight bytes with a differing trailer leave: `OVERWRITE` keeps the bytes and clears `VALID`, `SCRATCH` keeps
what stood in `F` (R76, R84). -/
theorem loadBuffer_of_not_rawMatches {raw : Raw} {s : State} (differing : ¬ RawMatches s.cfg raw) :
    ∃ t, loadBuffer 8 raw s = .next t ∧
      t.rsps = Response.bare .crcMismatch :: s.rsps ∧ t.cfg = s.cfg ∧ t.events = s.events ∧
      (s.cfg.decodeCommit = .overwrite → t.f = FrameBuf.ofRaw raw ∧ t.valid = false ∧ t.shadow = s.shadow) ∧
      (s.cfg.decodeCommit = .scratch → t.f = s.f ∧ t.valid = s.valid ∧ t.shadow = FrameBuf.ofRaw raw) := by
  rw [rawMatches_iff] at differing
  obtain ⟨wrong, -⟩ | ⟨-, matching, -⟩ | ⟨-, matching, -⟩ | ⟨-, -, commit, run⟩ | ⟨-, -, commit, run⟩ :=
    loadBuffer_cases 8 raw s
  · exact absurd rfl wrong
  · exact absurd matching differing
  · exact absurd matching differing
  · exact ⟨_, run, rfl, rfl, rfl, fun _ => ⟨rfl, rfl, rfl⟩, by simp [commit]⟩
  · exact ⟨_, run, rfl, rfl, rfl, by simp [commit], fun _ => ⟨rfl, rfl, rfl⟩⟩

/-- `LDRAW` of eight bytes is the load of the buffer they form (R76). -/
theorem exec_ldraw_eight (raw : Raw) (s : State) : exec (.ldraw 8 raw) s = loadBuffer 8 raw s := rfl

end Sys2Proof.Machine

open Sys2Proof Sys2Proof.Machine

/-- Settles O8: the stored bits by definition, rank and register as quotients and remainders of the control word, and
`unpack_ctrl16` for the inverse of packing. -/
theorem unpackReadsTheStoredFields : Obligations.UnpackReadsTheStoredFields :=
  ⟨fun ctrl data mask => ⟨rfl, rfl, unpack_rank_toNat ctrl data mask, unpack_regMask_reg_toNat ctrl data,
    unpack_rankMask_reg_toNat ctrl data, unpack_reg ctrl data mask, rfl⟩, unpack_ctrl16⟩

/-- Settles O41: the length first, then `loadBuffer` for a matching and for a differing trailer, whose buffer is read
lane by lane with `get_of_eq_ofRaw`. -/
theorem ldrawVerifiesAndCommits : Obligations.LdrawVerifiesAndCommits := by
  intro n raw s
  refine ⟨fun wrong => exec_ldraw_of_length_ne wrong raw s, ?_, ?_⟩
  · rintro rfl matching
    obtain ⟨t, run, bytes, rest⟩ := loadBuffer_of_rawMatches matching
    exact ⟨t, (exec_ldraw_eight raw s).trans run, FrameBuf.get_of_eq_ofRaw bytes, rest⟩
  · rintro rfl differing
    obtain ⟨t, run, rsps, cfg, events, overwrite, scratch⟩ := loadBuffer_of_not_rawMatches differing
    refine ⟨t, (exec_ldraw_eight raw s).trans run, rsps, cfg, events, fun commit => ?_, fun commit => ?_⟩
    · obtain ⟨bytes, rest⟩ := overwrite commit
      exact ⟨FrameBuf.get_of_eq_ofRaw bytes, rest⟩
    · obtain ⟨frame, valid, bytes⟩ := scratch commit
      exact ⟨frame, valid, FrameBuf.get_of_eq_ofRaw bytes⟩

/-- Settles O43: the response carries `parsedA`, each field of which is a digit group of `PAY`. -/
theorem parseAReadsVariantA : Obligations.ParseAReadsVariantA := fun s =>
  ⟨fun valid => ⟨_, exec_parseA_valid valid, rfl, rfl, parsedA_acc s, parsedA_wr s, parsedA_rank_toNat s,
    parsedA_data_toNat s, parsedA_reg_toNat_of_not_fixed, parsedA_reg_toNat_of_fixed⟩, exec_parseA_invalid⟩

/-- Settles O44: `SEG0` is the control word itself and the mask is `REG_MASK` whatever `REG_READBACK_FIX` says. -/
theorem parseBReadsVariantB : Obligations.ParseBReadsVariantB := fun s =>
  ⟨fun valid => ⟨_, exec_parseB_valid valid, rfl, rfl, rfl, rfl, unpack_rank_toNat s.f.seg0 s.f.seg1 regMask,
    unpack_regMask_reg_toNat s.f.seg0 s.f.seg1, rfl⟩, exec_parseB_invalid⟩
end

section
/-! The errors (spec/60_exceptions.md R82 to R89): the four kinds of command word, what a command of each kind answers
with, and the status as one function of the ports and the state. -/

namespace Sys2Proof.Machine

/-- What a command word asks for: that a frame be encoded, that the frame held be read, that a received buffer be
loaded, or nothing that exists (R50, R51). -/
inductive CommandKind where
  | encodes
  | reads
  | loads
  | reserved
deriving DecidableEq

/-- The kind of a command word. -/
def commandKind (word : BitVec 4) : CommandKind :=
  if word ∈ reservedWords then .reserved
  else if word = 0b0100#4 then .loads
  else if word = 0b0011#4 ∨ word = 0b0101#4 ∨ word = 0b1101#4 then .reads
  else .encodes

/-! Each kind is named by its words alone: of the 16 words none stands in two lists. -/

theorem commandKind_eq_reserved_iff : ∀ word, commandKind word = .reserved ↔ word ∈ reservedWords := by decide

theorem commandKind_eq_loads_iff : ∀ word, commandKind word = .loads ↔ word = 0b0100#4 := by decide

theorem commandKind_eq_reads_iff :
    ∀ word, commandKind word = .reads ↔ word = 0b0011#4 ∨ word = 0b0101#4 ∨ word = 0b1101#4 := by decide

theorem commandKind_eq_encodes_iff :
    ∀ word, commandKind word = .encodes ↔
      word = 0b0000#4 ∨ word = 0b0001#4 ∨ word = 0b1001#4 ∨ word = 0b0010#4 := by decide

/-! What a command word of each kind is decoded as, and what it answers with, whatever the operand ports hold. -/

section Kinds

variable {p : Ports} (s : State)

/-- The operand ports of a reserved word are ignored (R86). -/
theorem decode_mem_reservedInstrs (word : p.cmdOp ∈ reservedWords) : decode p ∈ reservedInstrs := by
  obtain ⟨op, w, r, g, d, n, raw⟩ := p
  simp only [reservedWords, List.mem_cons, List.not_mem_nil, or_false] at word
  rcases word with rfl | rfl | rfl | rfl | rfl | rfl | rfl | rfl <;> simp [reservedInstrs]

/-- A reserved command changes nothing but the responses (R86). -/
theorem exec_of_mem_reservedInstrs {i : Instr} (reserved : i ∈ reservedInstrs) :
    exec i s = .next (s.answer (Response.bare .badCommand)) := by
  simp only [reservedInstrs, List.mem_cons, List.not_mem_nil, or_false] at reserved
  rcases reserved with rfl | rfl | rfl | rfl | rfl | rfl | rfl | rfl <;> exact raise_eq s .badCommand

theorem decode_of_loads (kind : commandKind p.cmdOp = .loads) : decode p = .ldraw p.opRawLen p.opRaw := by
  obtain ⟨op, w, r, g, d, n, raw⟩ := p
  obtain rfl := (commandKind_eq_loads_iff op).1 kind
  exact decode_0100 w r g d n raw

theorem decode_of_reads (kind : commandKind p.cmdOp = .reads) :
    decode p = .rdraw ∨ decode p = .parseA ∨ decode p = .parseB := by
  obtain ⟨op, w, r, g, d, n, raw⟩ := p
  obtain rfl | rfl | rfl := (commandKind_eq_reads_iff op).1 kind
  · exact .inl (decode_0011 w r g d n raw)
  · exact .inr (.inl (decode_0101 w r g d n raw))
  · exact .inr (.inr (decode_1101 w r g d n raw))

/-- A read of a valid frame answers `OK` (R73, R78, R79). -/
theorem exec_of_reads_of_valid (kind : commandKind p.cmdOp = .reads) (valid : s.valid = true) :
    ∃ r, exec (decode p) s = .next (s.answer r) ∧ r.status = .ok := by
  obtain read | read | read := decode_of_reads kind <;> rw [read]
  · exact ⟨_, exec_rdraw_valid valid, rfl⟩
  · exact ⟨_, exec_parseA_valid valid, rfl⟩
  · exact ⟨_, exec_parseB_valid valid, rfl⟩

/-- A read while `VALID = 0` answers `CrcMismatch` (R84). -/
theorem exec_of_reads_of_invalid (kind : commandKind p.cmdOp = .reads) (invalid : s.valid = false) :
    exec (decode p) s = .next (s.answer (Response.bare .crcMismatch)) := by
  obtain read | read | read := decode_of_reads kind <;> rw [read]
  · exact exec_rdraw_invalid invalid
  · exact exec_parseA_invalid invalid
  · exact exec_parseB_invalid invalid

/-- A command that encodes a frame cannot fail (R68 to R72). -/
theorem exec_of_encodes (kind : commandKind p.cmdOp = .encodes) :
    ∃ f, exec (decode p) s = .next (s.sealedWith f) := by
  obtain ⟨op, w, r, g, d, n, raw⟩ := p
  obtain rfl | rfl | rfl | rfl := (commandKind_eq_encodes_iff op).1 kind
  · rw [decode_0000]
    exact ⟨_, exec_defaultFrame s⟩
  · rw [decode_0001]
    exact ⟨_, exec_fillA w r g d s⟩
  · rw [decode_1001]
    exact ⟨_, exec_fillB w r g d s⟩
  · rw [decode_0010]
    exact ⟨_, exec_updcrc s⟩

end Kinds

/-! The status of a command as one function, with the precedence of R89. -/

/-- The status the ports `p` are answered with in the state `s`. -/
def reportedStatus (p : Ports) (s : State) : Status :=
  match commandKind p.cmdOp with
  | .reserved => .badCommand
  | .loads => if p.opRawLen = 8 then if RawMatches s.cfg p.opRaw then .ok else .crcMismatch else .badLength
  | .reads => if s.valid = true then .ok else .crcMismatch
  | .encodes => .ok

/-- `LDRAW` looks at the length first, then at the trailer (R76, R84, R85). -/
theorem exec_ldraw_reports (n : Nat) (raw : Raw) (s : State) :
    ∃ t, exec (.ldraw n raw) s = .next t ∧
      t.rsps = Response.bare
        (if n = 8 then if RawMatches s.cfg raw then .ok else .crcMismatch else .badLength) :: s.rsps := by
  split_ifs with eight matching
  · subst eight
    obtain ⟨t, run, -, -, rsps, -⟩ := loadBuffer_of_rawMatches matching
    exact ⟨t, run, rsps⟩
  · subst eight
    obtain ⟨t, run, rsps, -⟩ := loadBuffer_of_not_rawMatches matching
    exact ⟨t, run, rsps⟩
  · exact ⟨_, exec_ldraw_of_length_ne eight raw s, rfl⟩

/-- Every presented command gives one response, with the status of `reportedStatus`. -/
theorem exec_decode_reports (p : Ports) (s : State) :
    ∃ t r, exec (decode p) s = .next t ∧ t.rsps = r :: s.rsps ∧ r.status = reportedStatus p s := by
  unfold reportedStatus
  cases kind : commandKind p.cmdOp
  case encodes =>
    obtain ⟨f, run⟩ := exec_of_encodes s kind
    exact ⟨_, _, run, rfl, rfl⟩
  case reads =>
    cases valid : s.valid
    case true =>
      obtain ⟨r, run, ok⟩ := exec_of_reads_of_valid s kind valid
      exact ⟨_, r, run, rfl, ok⟩
    case false => exact ⟨_, _, exec_of_reads_of_invalid s kind valid, rfl, rfl⟩
  case loads =>
    obtain ⟨t, run, rsps⟩ := exec_ldraw_reports p.opRawLen p.opRaw s
    exact ⟨t, _, (decode_of_loads kind).symm ▸ run, rsps, rfl⟩
  case reserved =>
    have word := (commandKind_eq_reserved_iff p.cmdOp).1 kind
    exact ⟨_, _, exec_of_mem_reservedInstrs s (decode_mem_reservedInstrs word), rfl, rfl⟩

/-! Which condition each error stands for (R84 to R86). -/

section Reported

variable (p : Ports) (s : State)

theorem reportedStatus_eq_badCommand_iff : reportedStatus p s = .badCommand ↔ p.cmdOp ∈ reservedWords := by
  rw [← commandKind_eq_reserved_iff, reportedStatus]
  cases commandKind p.cmdOp
  case encodes | reserved => simp
  case reads => dsimp only; split_ifs <;> simp
  case loads => dsimp only; split_ifs <;> simp

theorem reportedStatus_eq_badLength_iff :
    reportedStatus p s = .badLength ↔ p.cmdOp = 0b0100#4 ∧ p.opRawLen ≠ 8 := by
  rw [← commandKind_eq_loads_iff, reportedStatus]
  cases commandKind p.cmdOp
  case encodes | reserved => simp
  case reads => dsimp only; split_ifs <;> simp
  case loads => dsimp only; split_ifs with eight <;> simp [eight]

theorem reportedStatus_eq_crcMismatch_iff :
    reportedStatus p s = .crcMismatch ↔
      (p.cmdOp = 0b0100#4 ∧ p.opRawLen = 8 ∧ ¬ RawMatches s.cfg p.opRaw) ∨
      (s.valid = false ∧ (p.cmdOp = 0b0011#4 ∨ p.cmdOp = 0b0101#4 ∨ p.cmdOp = 0b1101#4)) := by
  rw [← commandKind_eq_loads_iff, ← commandKind_eq_reads_iff, reportedStatus]
  cases commandKind p.cmdOp
  case encodes | reserved => simp
  case reads => dsimp only; split_ifs with valid <;> simp [valid]
  case loads => dsimp only; split_ifs with eight matching <;> simp [*]

end Reported

end Sys2Proof.Machine

open Sys2Proof Sys2Proof.Machine

/-- Settles O47: a reserved word is decoded as a reserved command, and every one of these raises `BadCommand`. -/
theorem reservedWordsAnswerBadCommand : Obligations.ReservedWordsAnswerBadCommand := by
  refine ⟨fun p word => decode_mem_reservedInstrs word, fun s => ?_⟩
  have answers (i : Instr) (reserved : i ∈ reservedInstrs) := exec_of_mem_reservedInstrs s reserved
  simp only [reservedInstrs, List.forall_mem_cons] at answers
  obtain ⟨w0110, w0111, w1110, w1111, w1000, w1010, w1011, w1100, -⟩ := answers
  exact ⟨w0110, w0111, w1110, w1111, w1000, w1010, w1011, w1100⟩

/-- Settles O48: the status is `reportedStatus`, a function by cases on the kind of the command word. -/
theorem whichErrorACommandReports : Obligations.WhichErrorACommandReports := by
  intro p s
  obtain ⟨t, r, run, rsps, status⟩ := exec_decode_reports p s
  rw [← reportedStatus_eq_badCommand_iff p s, ← reportedStatus_eq_badLength_iff p s,
    ← reportedStatus_eq_crcMismatch_iff p s, ← status]
  exact ⟨t, r, run, rsps, Iff.rfl, Iff.rfl, Iff.rfl⟩
end

section
/-! The command port as one number (spec/30_encoding.md R49 to R52, R55): every command is presented on ports of their
widths, and the numbering of the ports loses nothing. -/

namespace Sys2Proof

/-- The round trip at the ports, one lemma of `Laws.PortRoundTrip` per constructor (R55). -/
theorem decode_encode : ∀ i : Instr, decode (encode i) = expand i
  | .defaultFrame => Laws.PortRoundTrip.defaultFrame
  | .fillA w r g d => Laws.PortRoundTrip.fillA w r g d
  | .fillB w r g d => Laws.PortRoundTrip.fillB w r g d
  | .updcrc => Laws.PortRoundTrip.updcrc
  | .rdraw => Laws.PortRoundTrip.rdraw
  | .ldraw n raw => Laws.PortRoundTrip.ldraw n raw
  | .parseA => Laws.PortRoundTrip.parseA
  | .parseB => Laws.PortRoundTrip.parseB
  | .reserved0110 => Laws.PortRoundTrip.reserved0110
  | .reserved0111 => Laws.PortRoundTrip.reserved0111
  | .reserved1110 => Laws.PortRoundTrip.reserved1110
  | .reserved1111 => Laws.PortRoundTrip.reserved1111
  | .reserved1000 => Laws.PortRoundTrip.reserved1000
  | .reserved1010 => Laws.PortRoundTrip.reserved1010
  | .reserved1011 => Laws.PortRoundTrip.reserved1011
  | .reserved1100 => Laws.PortRoundTrip.reserved1100
  | .filleA w r g => Laws.PortRoundTrip.filleA w r g
  | .filleB w r g => Laws.PortRoundTrip.filleB w r g
  | .frameA k a w r g d => Laws.PortRoundTrip.frameA k a w r g d
  | .frameB k a w r g d => Laws.PortRoundTrip.frameB k a w r g d

@[simp] theorem fits_zero (w : Nat) : fits w 0 = true := decide_eq_true (Nat.two_pow_pos w)

/-- The one length `LDRAW` accepts fits every admitted length port (R9, R52). -/
theorem fits_eight {w : Nat} (admitted : 4 ≤ w) : fits w 8 = true :=
  decide_eq_true (lt_of_lt_of_le (by decide : 8 < 2 ^ 4) (Nat.pow_le_pow_right (by decide) admitted))

theorem bareWord_wf (c : Config) (op : BitVec 4) : (bareWord op).wf c = true := by simp [bareWord, Ports.wf]

/-- A well-formed command drives every port within its width (R52); a frame's length of 8 needs the admitted widths. -/
theorem encode_wf {c : Config} {i : Instr} (admitted : c.wf = true) (wf : wellFormed c i = true) :
    (encode i).wf c = true := by
  have eight : fits c.rawLenW 8 = true := by
    simp only [Config.wf, Bool.and_eq_true, decide_eq_true_eq] at admitted
    obtain ⟨-, lengthWidth⟩ := admitted
    exact fits_eight lengthWidth
  cases i
  case fillA | fillB | filleA | filleB | ldraw => simpa [encode, Ports.wf, wellFormed] using wf
  case frameA | frameB => simp [encode, Ports.wf, eight]
  all_goals exact bareWord_wf c _

/-- A field in the low digits of a number is its remainder, what stands above it the quotient: read one field after the
other, the number gives every port back (log entry 12). -/
theorem portsOfBits_portsToBits {c : Config} {p : Ports} (wf : p.wf c = true) :
    portsOfBits c (portsToBits c p) = p := by
  obtain ⟨op, w, r, g, d, n, raw⟩ := p
  simp only [Ports.wf, fits, Bool.and_eq_true, decide_eq_true_eq] at wf
  obtain ⟨⟨⟨rank, reg⟩, data⟩, len⟩ := wf
  have word := op.isLt
  have flag : w.toNat < 2 ^ 1 := Bool.toNat_lt w
  have isWrite : (w.toNat == 1) = w := by cases w <;> rfl
  simp only [portsOfBits, portsToBits, join_div, join_mod, word, flag, rank, reg, data, len, isWrite,
    BitVec.ofNat_toNat, BitVec.setWidth_eq, Ports.mk.injEq, and_true]
  apply BitVec.eq_of_toNat_eq
  rw [BitVec.toNat_ofNat, join_mod word]

/-- What the ports decode to is never a pseudo-command or a data format, so it is its own expansion (R55). -/
theorem expand_decode (p : Ports) : expand (decode p) = decode p := by
  unfold decode
  split <;> rfl

end Sys2Proof

open Sys2Proof Sys2Proof.Machine

/-- Settles O2: the ports of a well-formed command have their widths, so their number gives them back, and what they
decode to is the round trip at the ports. -/
theorem encodedCommandsDecodeBack : Obligations.EncodedCommandsDecodeBack := by
  intro c i admitted wf
  have inWidth := encode_wf admitted wf
  exact ⟨inWidth, (congrArg decode (portsOfBits_portsToBits inWidth)).trans (decode_encode i)⟩

/-- Settles O3: kind by kind, each word with the ports its encoding drives; the second half is the round trip. -/
theorem unlistedOperandPortsAreIgnored : Obligations.UnlistedOperandPortsAreIgnored := by
  intro p
  refine ⟨?_, (decode_encode _).trans (expand_decode p)⟩
  obtain ⟨op, w, r, g, d, n, raw⟩ := p
  cases kind : commandKind op
  case encodes =>
    obtain rfl | rfl | rfl | rfl := (commandKind_eq_encodes_iff op).1 kind <;> simp [encode, bareWord]
  case reads =>
    obtain rfl | rfl | rfl := (commandKind_eq_reads_iff op).1 kind <;> simp [encode, bareWord]
  case loads =>
    obtain rfl := (commandKind_eq_loads_iff op).1 kind
    simp [encode]
  case reserved =>
    have word := (commandKind_eq_reserved_iff op).1 kind
    simp only [reservedWords, List.mem_cons, List.not_mem_nil, or_false] at word
    obtain rfl | rfl | rfl | rfl | rfl | rfl | rfl | rfl := word <;> simp [encode, bareWord]
end

section
/-! `MemRead` and `MemWrite` for every access inside the buffer (spec/20_memory.md R28), by induction on the number of
bytes. -/

namespace Sys2Proof.Machine.FrameBuf

theorem bytesFrom_toNat (f : FrameBuf) (addr n : Nat) :
    (f.bytesFrom addr n).toNat = ∑ k ∈ Finset.range n, (f.get (addr + k)).toNat * 256 ^ k := by
  induction n with
  | zero => rfl
  | succ n ih => rw [bytesFrom_succ_toNat, ih, Finset.sum_range_succ]

/-- Writing bytes one after the other leaves every offset outside them alone. -/
theorem get_foldl_set_outside (f : FrameBuf) (byte : Nat → Byte) {addr n i : Nat} (outside : i < addr ∨ addr + n ≤ i) :
    ((List.range n).foldl (fun g k => g.set (addr + k) (byte k)) f).get i = f.get i := by
  induction n with
  | zero => rfl
  | succ n ih =>
    rw [List.range_succ, List.foldl_append, List.foldl_cons, List.foldl_nil, get_set_other _ (by omega), ih (by omega)]

/-- A byte written stays, because the later ones go to higher offsets. -/
theorem get_foldl_set_inside (f : FrameBuf) (byte : Nat → Byte) {addr n k : Nat} (inside : addr + n ≤ 8) (hk : k < n) :
    ((List.range n).foldl (fun g k => g.set (addr + k) (byte k)) f).get (addr + k) = byte k := by
  induction n with
  | zero => omega
  | succ n ih =>
    rw [List.range_succ, List.foldl_append, List.foldl_cons, List.foldl_nil]
    by_cases last : k = n
    · rw [last, get_set_same _ (by omega)]
    · rw [get_set_other _ (by omega), ih (by omega) (by omega)]

theorem get_memWrite_outside (f : FrameBuf) {addr n i : Nat} (v : BitVec (8 * n)) (inside : addr + n ≤ 8)
    (outside : i < addr ∨ addr + n ≤ i) : (f.memWrite addr n v inside).get i = f.get i :=
  get_foldl_set_outside f (fun k => v.extractLsb' (8 * k) 8) outside

theorem get_memWrite_inside_toNat (f : FrameBuf) {addr n k : Nat} (v : BitVec (8 * n)) (inside : addr + n ≤ 8)
    (hk : k < n) : ((f.memWrite addr n v inside).get (addr + k)).toNat = v.toNat / 256 ^ k % 256 := by
  have byte : (f.memWrite addr n v inside).get (addr + k) = v.extractLsb' (8 * k) 8 :=
    get_foldl_set_inside f (fun k => v.extractLsb' (8 * k) 8) inside hk
  rw [byte, extract_toNat, Nat.pow_mul]
  rfl

/-- The digits of a number to the base `b`, weighted by their powers, are the number below `b ^ n`. -/
theorem sum_digits_eq_mod (b v n : Nat) : ∑ k ∈ Finset.range n, v / b ^ k % b * b ^ k = v % b ^ n := by
  induction n with
  | zero => rw [Finset.sum_range_zero, Nat.pow_zero, Nat.mod_one]
  | succ n ih => rw [Finset.sum_range_succ, ih, Nat.mod_pow_succ, Nat.mul_comm (b ^ n)]

theorem memRead_memWrite (f : FrameBuf) {addr n : Nat} (v : BitVec (8 * n)) (inside : addr + n ≤ 8) :
    (f.memWrite addr n v inside).memRead addr n inside = v := by
  apply BitVec.eq_of_toNat_eq
  calc ((f.memWrite addr n v inside).bytesFrom addr n).toNat
      = ∑ k ∈ Finset.range n, v.toNat / 256 ^ k % 256 * 256 ^ k := by
        rw [bytesFrom_toNat]
        refine Finset.sum_congr rfl fun k hk => ?_
        rw [get_memWrite_inside_toNat f v inside (Finset.mem_range.1 hk)]
    _ = v.toNat := by
        rw [sum_digits_eq_mod, Nat.mod_eq_of_lt]
        exact lt_of_lt_of_eq v.isLt (Nat.pow_mul 2 8 n)

end Sys2Proof.Machine.FrameBuf

open Sys2Proof Sys2Proof.Machine

/-- Settles O9: one lemma each for the value read, the bytes written, the bytes left alone and the value read back. -/
theorem memReadAndMemWriteAreLittleEndian : Obligations.MemReadAndMemWriteAreLittleEndian := fun f addr n inside =>
  ⟨f.bytesFrom_toNat addr n, fun v => ⟨fun _ hk => f.get_memWrite_inside_toNat v inside hk,
    fun _ _ outside => f.get_memWrite_outside v inside outside, f.memRead_memWrite v inside⟩⟩
end

section
/-! The packed words taken apart and the frame words read as data (spec/30_encoding.md R42 to R45). -/

namespace Sys2Proof.Machine

/-- A Variant A payload is the control word above the data (R43, R44). -/
theorem payA_eq (x : Fields) : payA x = (ctrl16 x ++ x.data : BitVec 32) := rfl

/-- The upper half of two joined halves. -/
theorem extract_append_upper_half (a b : Half) : (a ++ b : BitVec 32).extractLsb' 16 16 = a := by
  apply BitVec.eq_of_toNat_eq
  rw [extract_toNat, FrameBuf.append_toNat]
  omega

/-- The lower half of two joined halves. -/
theorem extract_append_lower_half (a b : Half) : (a ++ b : BitVec 32).extractLsb' 0 16 = b := by
  apply BitVec.eq_of_toNat_eq
  rw [extract_toNat, FrameBuf.append_toNat]
  omega

theorem payA_upper_half (x : Fields) : (payA x).extractLsb' 16 16 = ctrl16 x := extract_append_upper_half _ _

theorem payA_lower_half (x : Fields) : (payA x).extractLsb' 0 16 = x.data := extract_append_lower_half _ _

theorem getLsbD_toNat {n : Nat} (x : BitVec n) (i : Nat) : (x.getLsbD i).toNat = x.toNat / 2 ^ i % 2 := by
  rw [getLsbD_eq_decide]
  obtain zero | one := Nat.mod_two_eq_zero_or_one (x.toNat / 2 ^ i)
  · simp [zero]
  · simp [one]

/-- Packing is the inverse of unpacking under the whole register mask, so no bit of a control word is lost (R77). -/
theorem ctrl16_unpack (ctrl data : Half) : ctrl16 (unpack ctrl data regMask) = ctrl := by
  apply BitVec.eq_of_toNat_eq
  have acc : (unpack ctrl data regMask).acc.toNat = ctrl.toNat / 2 ^ 15 % 2 := getLsbD_toNat ctrl 15
  have wr : (unpack ctrl data regMask).wr.toNat = ctrl.toNat / 2 ^ 14 % 2 := getLsbD_toNat ctrl 14
  rw [ctrl16_toNat, acc, wr, unpack_rank_toNat, unpack_regMask_reg_toNat]
  omega

/-- The four halves of a 64-bit value, from the value as their weighted sum. -/
theorem halves_of_toNat_eq {w : Raw} {a b c d : Half}
    (sum : w.toNat = a.toNat * 2 ^ 48 + b.toNat * 2 ^ 32 + c.toNat * 2 ^ 16 + d.toNat) :
    w.extractLsb' 48 16 = a ∧ w.extractLsb' 32 16 = b ∧ w.extractLsb' 16 16 = c ∧ w.extractLsb' 0 16 = d := by
  refine ⟨?_, ?_, ?_, ?_⟩ <;> apply BitVec.eq_of_toNat_eq <;> rw [extract_toNat, sum] <;> omega

/-- A 64-bit value is its four halves. -/
theorem eq_of_halves_eq {w u : Raw} (h3 : w.extractLsb' 48 16 = u.extractLsb' 48 16)
    (h2 : w.extractLsb' 32 16 = u.extractLsb' 32 16) (h1 : w.extractLsb' 16 16 = u.extractLsb' 16 16)
    (h0 : w.extractLsb' 0 16 = u.extractLsb' 0 16) : w = u := by
  apply BitVec.eq_of_toNat_eq
  rw [← BitVec.toNat_inj] at h0 h1 h2 h3
  simp only [extract_toNat] at h0 h1 h2 h3
  omega

/-- The halves of a Variant A frame: trailer, control word, data, header (R42, R43). -/
theorem frameWordA_halves (k : Half) (x : Fields) :
    (frameWordA k x).extractLsb' 48 16 = k ∧ (frameWordA k x).extractLsb' 32 16 = ctrl16 x ∧
    (frameWordA k x).extractLsb' 16 16 = x.data ∧ (frameWordA k x).extractLsb' 0 16 = headerMagic := by
  apply halves_of_toNat_eq
  have magic : headerMagic.toNat = 0xBEEF := rfl
  rw [frameWordA_toNat, payA_eq, FrameBuf.append_toNat, magic]
  omega

/-- The halves of a Variant B frame: trailer, data, control word, header (R42, R45). -/
theorem frameWordB_halves (k : Half) (x : Fields) :
    (frameWordB k x).extractLsb' 48 16 = k ∧ (frameWordB k x).extractLsb' 32 16 = x.data ∧
    (frameWordB k x).extractLsb' 16 16 = ctrl16 x ∧ (frameWordB k x).extractLsb' 0 16 = headerMagic :=
  halves_of_toNat_eq (frameWordB_toNat k x)

/-- The row `FRAME.A` with its fields as one value. -/
def frameAOf (k : Half) (x : Fields) : Instr := .frameA k x.acc x.wr x.rank x.reg x.data

/-- The row `FRAME.B` with its fields as one value. -/
def frameBOf (k : Half) (x : Fields) : Instr := .frameB k x.acc x.wr x.rank x.reg x.data

/-- The five fields cut out of a frame value at bit `lo` are those of the unpacked control word that stands there. -/
theorem unpack_extract (w : Raw) (lo : Nat) (data : Half) :
    unpack (w.extractLsb' lo 16) data regMask =
      ⟨w.getLsbD (lo + 15), w.getLsbD (lo + 14), w.extractLsb' (lo + 12) 2, w.extractLsb' lo 12, data⟩ := by
  have rank : (unpack (w.extractLsb' lo 16) data regMask).rank = w.extractLsb' (lo + 12) 2 := by
    apply BitVec.eq_of_toNat_eq
    rw [unpack_rank_toNat, extract_toNat, extract_toNat, Nat.pow_add, ← Nat.div_div_eq_div_mul]
    omega
  have reg : (unpack (w.extractLsb' lo 16) data regMask).reg = w.extractLsb' lo 12 := by
    apply BitVec.eq_of_toNat_eq
    rw [unpack_regMask_reg_toNat, extract_toNat, extract_toNat]
    omega
  rw [← rank, ← reg]
  simp [unpack]

theorem setWidth_eq_extract_header (w : Raw) : w.setWidth 16 = w.extractLsb' 0 16 :=
  BitVec.setWidth_eq_extractLsb' (by decide)

/-- A word with the header `0xBEEF` is read as a Variant A frame: its halves, the control word unpacked. -/
theorem decodeFrameA_of_header {w : Raw} (header : w.extractLsb' 0 16 = headerMagic) :
    decodeFrameA w =
      .ok (frameAOf (w.extractLsb' 48 16) (unpack (w.extractLsb' 32 16) (w.extractLsb' 16 16) regMask)) := by
  rw [decodeFrameA, if_pos ((setWidth_eq_extract_header w).trans header), unpack_extract]
  rfl

/-- A word with the header `0xBEEF` is read as a Variant B frame: its halves, the control word unpacked. -/
theorem decodeFrameB_of_header {w : Raw} (header : w.extractLsb' 0 16 = headerMagic) :
    decodeFrameB w =
      .ok (frameBOf (w.extractLsb' 48 16) (unpack (w.extractLsb' 16 16) (w.extractLsb' 32 16) regMask)) := by
  rw [decodeFrameB, if_pos ((setWidth_eq_extract_header w).trans header), unpack_extract]
  rfl

/-- Another header is refused in both layouts (log entry 11). -/
theorem decodeFrame_of_other_header {w : Raw} (header : w.extractLsb' 0 16 ≠ headerMagic) :
    decodeFrameA w = .error .headerNotMagic ∧ decodeFrameB w = .error .headerNotMagic := by
  rw [← setWidth_eq_extract_header] at header
  exact ⟨if_neg header, if_neg header⟩

theorem decodeFrameA_frameWordA (k : Half) (x : Fields) : decodeFrameA (frameWordA k x) = .ok (frameAOf k x) := by
  obtain ⟨trailer, ctrl, data, header⟩ := frameWordA_halves k x
  rw [decodeFrameA_of_header header, trailer, ctrl, data, unpack_ctrl16]

theorem decodeFrameB_frameWordB (k : Half) (x : Fields) : decodeFrameB (frameWordB k x) = .ok (frameBOf k x) := by
  obtain ⟨trailer, data, ctrl, header⟩ := frameWordB_halves k x
  rw [decodeFrameB_of_header header, trailer, ctrl, data, unpack_ctrl16]

/-- Built again from what was read, a Variant A frame is the word it was read from. -/
theorem frameWordA_of_halves {w : Raw} (header : w.extractLsb' 0 16 = headerMagic) :
    frameWordA (w.extractLsb' 48 16) (unpack (w.extractLsb' 32 16) (w.extractLsb' 16 16) regMask) = w := by
  obtain ⟨h3, h2, h1, h0⟩ := frameWordA_halves (w.extractLsb' 48 16)
    (unpack (w.extractLsb' 32 16) (w.extractLsb' 16 16) regMask)
  exact eq_of_halves_eq h3 (h2.trans (ctrl16_unpack _ _)) h1 (h0.trans header.symm)

/-- Built again from what was read, a Variant B frame is the word it was read from. -/
theorem frameWordB_of_halves {w : Raw} (header : w.extractLsb' 0 16 = headerMagic) :
    frameWordB (w.extractLsb' 48 16) (unpack (w.extractLsb' 16 16) (w.extractLsb' 32 16) regMask) = w := by
  obtain ⟨h3, h2, h1, h0⟩ := frameWordB_halves (w.extractLsb' 48 16)
    (unpack (w.extractLsb' 16 16) (w.extractLsb' 32 16) regMask)
  exact eq_of_halves_eq h3 h2 (h1.trans (ctrl16_unpack _ _)) (h0.trans header.symm)

end Sys2Proof.Machine

open Sys2Proof Sys2Proof.Machine

/-- Settles O5: the two numbers, and the Variant A payload as the control word above the data. -/
theorem payloadLayoutsPlaceTheFields : Obligations.PayloadLayoutsPlaceTheFields := fun x =>
  ⟨payA_toNat x, ctrl16_toNat x, payA_upper_half x, payA_lower_half x, rfl, rfl⟩

/-- Settles O4: both layouts are read half by half, packing and unpacking are inverse to each other, and the header
alone decides whether a word is read. -/
theorem frameWordsDecodeBack : Obligations.FrameWordsDecodeBack :=
  ⟨fun k a w r g d =>
    ⟨decodeFrameA_frameWordA k ⟨a, w, r, g, d⟩, decodeFrameB_frameWordB k ⟨a, w, r, g, d⟩⟩,
  fun _ => ⟨decodeFrame_of_other_header, fun header =>
    ⟨⟨_, _, _, _, _, _, decodeFrameA_of_header header, frameWordA_of_halves header⟩,
      ⟨_, _, _, _, _, _, decodeFrameB_of_header header, frameWordB_of_halves header⟩⟩⟩⟩
end

section
/-! What the trailer of a frame depends on (spec/40_crc_generator.md R57, R65; spec/41_frame_encoder.md R74): frames
that agree on header and payload are stamped alike, so `FILL` and `DEFAULT` are compared by their views. -/

namespace Sys2Proof.Machine

namespace FrameBuf

@[simp] theorem hdr_memWrite_payload (f : FrameBuf) (v : BitVec 32) : (f.memWrite 2 4 v).hdr = f.hdr := by
  rw [memWrite_payload, hdr_eq, hdr_eq]

@[simp] theorem hdr_memWrite_segments (f : FrameBuf) (v u : BitVec 16) :
    ((f.memWrite 2 2 v).memWrite 4 2 u).hdr = f.hdr := by
  rw [memWrite_seg1, memWrite_seg0, hdr_eq, hdr_eq]

@[simp] theorem hdr_memWrite_header (f : FrameBuf) (v : BitVec 16) : (f.memWrite 0 2 v).hdr = v := by
  rw [memWrite_header, hdr_eq]
  exact append_extract v

@[simp] theorem pay_memWrite_segments (f : FrameBuf) (v u : BitVec 16) :
    ((f.memWrite 2 2 v).memWrite 4 2 u).pay = (u ++ v : BitVec 32) := by
  rw [pay_eq, seg1_memWrite_seg1, seg0_memWrite_segments]

/-- Frames with one header and one payload differ at most in the trailer. -/
theorem eq_memWrite_trailer_of_views {f g : FrameBuf} (hdr : f.hdr = g.hdr) (pay : f.pay = g.pay) :
    f = g.memWrite 6 2 f.crcf := by
  rw [← BitVec.toNat_inj] at hdr pay
  rw [hdr_toNat, hdr_toNat] at hdr
  rw [pay_toNat, pay_toNat] at pay
  rw [memWrite_trailer, crcf_eq, extract_append_low, extract_append_high]
  apply ext_bytes
  case h6 | h7 => rfl
  all_goals
    apply BitVec.eq_of_toNat_eq
    dsimp only
    omega

end FrameBuf

@[simp] theorem blankBuf_hdr (f : FrameBuf) : (blankBuf f).hdr = headerMagic := by
  rw [blankBuf, FrameBuf.hdr_memWrite_payload, FrameBuf.hdr_memWrite_header]

@[simp] theorem blankBuf_pay (f : FrameBuf) : (blankBuf f).pay = 0#32 := FrameBuf.pay_memWrite_payload _ _

@[simp] theorem stampedBuf_hdr (c : Config) (f : FrameBuf) : (stampedBuf c f).hdr = f.hdr := by
  simp only [FrameBuf.hdr_eq, stampedBuf_b0, stampedBuf_b1]

/-- The trailer that stood there before does not matter. -/
theorem stampedBuf_memWrite_trailer (c : Config) (f : FrameBuf) (v : Half) :
    stampedBuf c (f.memWrite 6 2 v) = stampedBuf c f := by
  rw [stampedBuf, frameCrcOf_memWrite_trailer, stampedBuf]
  simp only [FrameBuf.memWrite_trailer]

/-- A stamped frame is a function of its header and its payload. -/
theorem stampedBuf_congr (c : Config) {f g : FrameBuf} (hdr : f.hdr = g.hdr) (pay : f.pay = g.pay) :
    stampedBuf c f = stampedBuf c g := by
  rw [FrameBuf.eq_memWrite_trailer_of_views hdr pay, stampedBuf_memWrite_trailer]

@[simp] theorem State.sealedWith_valid (s : State) (f : FrameBuf) : (s.sealedWith f).valid = true := rfl
@[simp] theorem State.sealedWith_cfg (s : State) (f : FrameBuf) : (s.sealedWith f).cfg = s.cfg := rfl
@[simp] theorem State.sealedWith_events (s : State) (f : FrameBuf) : (s.sealedWith f).events = s.events := rfl
@[simp] theorem State.sealedWith_rsps (s : State) (f : FrameBuf) :
    (s.sealedWith f).rsps = Response.bare .ok :: s.rsps := rfl

/-- The frame `FILL.A` puts in front of the trailer (R69). -/
def filledA (x : Fields) (f : FrameBuf) : FrameBuf := f.memWrite 2 4 (payA x)

/-- The frame `FILL.B` puts in front of the trailer (R70). -/
def filledB (x : Fields) (f : FrameBuf) : FrameBuf := (f.memWrite 2 2 (seg0B x)).memWrite 4 2 (seg1B x)

section Filled

variable (x : Fields) (f : FrameBuf)

@[simp] theorem filledA_hdr : (filledA x f).hdr = f.hdr := f.hdr_memWrite_payload (payA x)

@[simp] theorem filledB_hdr : (filledB x f).hdr = f.hdr := f.hdr_memWrite_segments (seg0B x) (seg1B x)

@[simp] theorem filledA_pay : (filledA x f).pay = (ctrl16 x ++ x.data : BitVec 32) := f.pay_memWrite_payload (payA x)

@[simp] theorem filledB_pay : (filledB x f).pay = (x.data ++ ctrl16 x : BitVec 32) :=
  f.pay_memWrite_segments (seg0B x) (seg1B x)

end Filled

section Fill

variable (w : Bool) (r g d : Nat) (s : State)

theorem exec_fillA_eq_sealedWith : exec (.fillA w r g d) s = .next (s.sealedWith (filledA (assemble w r g d) s.f)) :=
  exec_fillA w r g d s

theorem exec_fillB_eq_sealedWith : exec (.fillB w r g d) s = .next (s.sealedWith (filledB (assemble w r g d) s.f)) :=
  exec_fillB w r g d s

/-- Operands reduced before they are presented: `FILL.A` writes the same payload (R47). -/
theorem exec_fillA_mod :
    exec (.fillA w (r % 4) (g % 4096) (d % 65536)) s = .next (s.sealedWith (filledA (assemble w r g d) s.f)) := by
  rw [exec_fillA_eq_sealedWith, assemble_mod]

/-- Operands reduced before they are presented: `FILL.B` writes the same segments (R47). -/
theorem exec_fillB_mod :
    exec (.fillB w (r % 4) (g % 4096) (d % 65536)) s = .next (s.sealedWith (filledB (assemble w r g d) s.f)) := by
  rw [exec_fillB_eq_sealedWith, assemble_mod]

end Fill

/-- What two sealed states hold is equal when their instances and the frames before the stamp are. -/
theorem sealedWith_congr {s s' : State} {f g : FrameBuf} (cfg : s.cfg = s'.cfg) (hdr : f.hdr = g.hdr)
    (pay : f.pay = g.pay) :
    (s.sealedWith f).f = (s'.sealedWith g).f ∧ (s.sealedWith f).valid = (s'.sealedWith g).valid := by
  rw [State.sealedWith_f, State.sealedWith_f, cfg]
  exact ⟨stampedBuf_congr s'.cfg hdr pay, rfl⟩

/-- All operands 0 are the payload 0 in both layouts. -/
theorem ctrl16_assemble_zero : ctrl16 (assemble false 0 0 0) = 0#16 ∧ (assemble false 0 0 0).data = 0#16 := by decide

end Sys2Proof.Machine

open Sys2Proof Sys2Proof.Machine

/-- Settles O39: the payloads are the control word and the data joined in the two orders, and frames of one header are
equal when their payloads are. -/
theorem theTwoLayoutsAreHalfSwapped : Obligations.TheTwoLayoutsAreHalfSwapped := by
  intro w r g d s
  refine ⟨_, _, exec_fillA_eq_sealedWith w r g d s, exec_fillB_eq_sealedWith w r g d s, ?_⟩
  simp only [State.sealedWith_f, stampedBuf_pay, filledA_pay, filledB_pay, extract_append_upper_half,
    extract_append_lower_half, true_and]
  constructor
  · intro same
    have pay := congrArg FrameBuf.pay same
    rw [stampedBuf_pay, stampedBuf_pay, filledA_pay, filledB_pay] at pay
    rw [← extract_append_lower_half (assemble w r g d).data (ctrl16 (assemble w r g d)), pay,
      extract_append_lower_half]
  · intro halves
    apply stampedBuf_congr
    · rw [filledB_hdr, filledA_hdr]
    · rw [filledB_pay, filledA_pay, halves]

/-- Settles O40: every frame compared has the same header and payload before it is stamped. -/
theorem encoderResultsDependOnOperandsAndHeader : Obligations.EncoderResultsDependOnOperandsAndHeader := by
  constructor
  · intro w r g d s s' cfg header
    obtain ⟨frameA, validA⟩ := sealedWith_congr cfg (f := filledA (assemble w r g d) s.f)
      (g := filledA (assemble w r g d) s'.f) (by simp [header]) (by simp)
    obtain ⟨frameB, validB⟩ := sealedWith_congr cfg (f := filledB (assemble w r g d) s.f)
      (g := filledB (assemble w r g d) s'.f) (by simp [header]) (by simp)
    exact ⟨_, _, _, _, exec_fillA_eq_sealedWith w r g d s, exec_fillA_mod w r g d s', frameA, validA,
      exec_fillB_eq_sealedWith w r g d s, exec_fillB_mod w r g d s', frameB, validB⟩
  · intro s s' cfg header
    obtain ⟨ctrl, data⟩ := ctrl16_assemble_zero
    obtain ⟨frameA, validA⟩ := sealedWith_congr cfg (f := blankBuf s.f) (g := filledA (assemble false 0 0 0) s'.f)
      (by simp [header, headerMagic]) (by simp [ctrl, data])
    obtain ⟨frameB, validB⟩ := sealedWith_congr cfg (f := blankBuf s.f) (g := filledB (assemble false 0 0 0) s'.f)
      (by simp [header, headerMagic]) (by simp [ctrl, data])
    exact ⟨_, _, _, exec_defaultFrame s, exec_fillA_eq_sealedWith false 0 0 0 s',
      exec_fillB_eq_sealedWith false 0 0 0 s', frameA, validA, frameB, validB⟩
end

section
/-! What a command can do, once for all commands (spec/20_memory.md R37, spec/60_exceptions.md R82, R91): it seals a
frame, reads, loads a received buffer, or is refused. The rules over all commands and over the step follow from these
four cases. -/

namespace Sys2Proof.Machine

/-- A command has one next state. -/
theorem next_unique {answer : Result} {t u : State} (run : answer = .next t) (run' : answer = .next u) : t = u :=
  Host.Outcome.next.inj (run.symm.trans run')

/-- The four things a command can do. `write` puts header and payload in front of the trailer, and doing so again
changes neither; `response` looks at `F`, `VALID` and the parameters only. -/
inductive CommandShape (i : Instr) : Prop
  | seals (write : FrameBuf → FrameBuf) (run : ∀ s, exec i s = .next (s.sealedWith (write s.f)))
      (again : ∀ f g, g.hdr = (write f).hdr → g.pay = (write f).pay →
        (write g).hdr = (write f).hdr ∧ (write g).pay = (write f).pay)
  | reads (response : FrameBuf → Bool → Config → Response) (read : i = .rdraw ∨ i = .parseA ∨ i = .parseB)
      (run : ∀ s, exec i s = .next (s.answer (response s.f s.valid s.cfg)))
  | loads (len : Nat) (raw : Raw) (run : ∀ s, exec i s = loadBuffer len raw s)
  | refuses (reserved : i ∈ reservedInstrs)

/-- The response of `RDRAW` (R73). -/
def rdrawResponse (f : FrameBuf) (valid : Bool) (_ : Config) : Response :=
  if valid = true then { Response.bare .ok with raw := f.frame64 } else Response.bare .crcMismatch

/-- The response of `PARSE.A` (R78). -/
def parseAResponse (f : FrameBuf) (valid : Bool) (c : Config) : Response :=
  if valid = true then
    Response.ofFields (unpack (f.pay.extractLsb' 16 16) (f.pay.extractLsb' 0 16) (readbackMaskA c))
  else Response.bare .crcMismatch

/-- The response of `PARSE.B` (R79). -/
def parseBResponse (f : FrameBuf) (valid : Bool) (_ : Config) : Response :=
  if valid = true then Response.ofFields (unpack f.seg0 f.seg1 regMask) else Response.bare .crcMismatch

theorem exec_rdraw (s : State) : exec .rdraw s = .next (s.answer (rdrawResponse s.f s.valid s.cfg)) := by
  cases valid : s.valid
  case true => exact exec_rdraw_valid valid
  case false => exact exec_rdraw_invalid valid

theorem exec_parseA (s : State) : exec .parseA s = .next (s.answer (parseAResponse s.f s.valid s.cfg)) := by
  cases valid : s.valid
  case true => exact exec_parseA_valid valid
  case false => exact exec_parseA_invalid valid

theorem exec_parseB (s : State) : exec .parseB s = .next (s.answer (parseBResponse s.f s.valid s.cfg)) := by
  cases valid : s.valid
  case true => exact exec_parseB_valid valid
  case false => exact exec_parseB_invalid valid

/-- The payload of `FILL.A` written again (R69). -/
theorem filledA_again (x : Fields) {f g : FrameBuf} (hdr : g.hdr = (filledA x f).hdr) :
    (filledA x g).hdr = (filledA x f).hdr ∧ (filledA x g).pay = (filledA x f).pay := by
  simpa using hdr

/-- The segments of `FILL.B` written again (R70). -/
theorem filledB_again (x : Fields) {f g : FrameBuf} (hdr : g.hdr = (filledB x f).hdr) :
    (filledB x g).hdr = (filledB x f).hdr ∧ (filledB x g).pay = (filledB x f).pay := by
  simpa using hdr

/-- Every row of the opcode table has one of the four shapes. -/
theorem commandShape (i : Instr) : CommandShape i := by
  cases i
  case defaultFrame => exact .seals blankBuf exec_defaultFrame fun _ _ _ _ => by simp
  case fillA w r g d => exact .seals _ (exec_fillA_eq_sealedWith w r g d) fun _ _ hdr _ => filledA_again _ hdr
  case fillB w r g d => exact .seals _ (exec_fillB_eq_sealedWith w r g d) fun _ _ hdr _ => filledB_again _ hdr
  case filleA w r g => exact .seals _ (exec_fillA_eq_sealedWith w r g 0) fun _ _ hdr _ => filledA_again _ hdr
  case filleB w r g => exact .seals _ (exec_fillB_eq_sealedWith w r g 0) fun _ _ hdr _ => filledB_again _ hdr
  case updcrc => exact .seals id exec_updcrc fun f g hdr pay => ⟨hdr, pay⟩
  case rdraw => exact .reads rdrawResponse (by simp) exec_rdraw
  case parseA => exact .reads parseAResponse (by simp) exec_parseA
  case parseB => exact .reads parseBResponse (by simp) exec_parseB
  case ldraw n raw => exact .loads n raw fun _ => rfl
  case frameA k a w r g d => exact .loads 8 (frameWordA k ⟨a, w, r, g, d⟩) fun _ => rfl
  case frameB k a w r g d => exact .loads 8 (frameWordB k ⟨a, w, r, g, d⟩) fun _ => rfl
  all_goals exact .refuses (by simp [reservedInstrs])

/-- A received buffer leaves the parameters and the events and gives one response. -/
theorem loadBuffer_surroundings (len : Nat) (raw : Raw) (s : State) :
    ∃ t st, loadBuffer len raw s = .next t ∧ t.cfg = s.cfg ∧ t.events = s.events ∧
      t.rsps = Response.bare st :: s.rsps := by
  obtain ⟨-, run⟩ | ⟨-, -, -, run⟩ | ⟨-, -, -, run⟩ | ⟨-, -, -, run⟩ | ⟨-, -, -, run⟩ := loadBuffer_cases len raw s
  all_goals exact ⟨_, _, run, rfl, rfl, rfl⟩

/-- Every command in every state has a next state, which differs from the state before in one response more and neither
in the parameters nor in the events (R23, R49, R91). -/
theorem exec_surroundings (i : Instr) (s : State) :
    ∃ t r, exec i s = .next t ∧ t.cfg = s.cfg ∧ t.events = s.events ∧ t.rsps = r :: s.rsps := by
  cases commandShape i
  case seals write run _ => exact ⟨_, _, run s, rfl, rfl, rfl⟩
  case reads response _ run => exact ⟨_, _, run s, rfl, rfl, rfl⟩
  case loads len raw run =>
    obtain ⟨t, st, load, surroundings⟩ := loadBuffer_surroundings len raw s
    exact ⟨t, _, (run s).trans load, surroundings⟩
  case refuses reserved => exact ⟨_, _, exec_of_mem_reservedInstrs s reserved, rfl, rfl, rfl⟩

/-- `exec_surroundings` for a next state at hand. -/
theorem surroundings_of_exec {i : Instr} {s t : State} (run : exec i s = .next t) :
    t.cfg = s.cfg ∧ t.events = s.events ∧ ∃ r, t.rsps = r :: s.rsps := by
  obtain ⟨u, r, run', cfg, events, rsps⟩ := exec_surroundings i s
  obtain rfl := next_unique run run'
  exact ⟨cfg, events, r, rsps⟩

/-! The step, event by event. -/

section Step

variable {s : State} {rest : List Event}

theorem step_of_idle (idle : s.events = []) : step s = .next s := by
  rw [step, idle]
  rfl

theorem step_of_command {p : Ports} (next : s.events = .command p :: rest) :
    step s = exec (decode p) (s.setEvents rest) := by
  rw [step, next]

theorem step_of_reset {a : Option Ports} (next : s.events = .reset a :: rest) :
    step s = .next (applyReset (s.setEvents rest)) := by
  rw [step, next]
  rfl

/-- A presented command is the next one carried out, on the state before it was presented. -/
theorem step_present (s : State) (p : Ports) : step (s.present p) = exec (decode p) s := rfl

end Step

/-- The three things a step can do. -/
theorem step_cases (s : State) :
    step s = .next s ∨ (∃ i rest, step s = exec i (s.setEvents rest)) ∨
    ∃ rest, step s = .next (applyReset (s.setEvents rest)) := by
  cases next : s.events with
  | nil => exact .inl (step_of_idle next)
  | cons e rest =>
    cases e with
    | command p => exact .inr (.inl ⟨_, _, step_of_command next⟩)
    | reset a => exact .inr (.inr ⟨_, step_of_reset next⟩)

/-- What says nothing of the queue and is kept by every command and by `RESET` is kept by every step. -/
theorem step_keeps {P : State → Prop} (queue : ∀ s es, P s → P (s.setEvents es))
    (command : ∀ i s t, P s → exec i s = .next t → P t) (reset : ∀ s, P s → P (applyReset s)) {s t : State}
    (holds : P s) (run : step s = .next t) : P t := by
  obtain idle | ⟨i, rest, instr⟩ | ⟨rest, restart⟩ := step_cases s
  · obtain rfl := next_unique run idle
    exact holds
  · exact command i _ t (queue s rest holds) (instr.symm.trans run)
  · obtain rfl := next_unique run restart
    exact reset _ (queue s rest holds)

/-! The invariants of R17. -/

/-- A sealed frame matches and is valid (R72). -/
theorem validMeansMatching_sealedWith (s : State) (f : FrameBuf) : ValidMeansMatching (s.sealedWith f) :=
  iff_of_true rfl (stampedBuf_crcf s.cfg f)

/-- The reset frame matches, because it is the frame `DEFAULT` stamps (R25). -/
theorem crcf_reset (c : Config) : (FrameBuf.reset c.crcCover).crcf = frameCrcOf c (FrameBuf.reset c.crcCover) := by
  rw [← stampedBuf_blankBuf c FrameBuf.zero, stampedBuf_crcf]

/-- `LDRAW` sets `VALID` to what the comparison says, or leaves `F` and `VALID` both (R76). -/
theorem loadBuffer_keeps_validMeansMatching {len : Nat} {raw : Raw} {s t : State} (holds : ValidMeansMatching s)
    (run : loadBuffer len raw s = .next t) : ValidMeansMatching t := by
  obtain ⟨-, load⟩ | ⟨-, matching, -, load⟩ | ⟨-, matching, -, load⟩ | ⟨-, differing, -, load⟩ | ⟨-, -, -, load⟩ :=
    loadBuffer_cases len raw s
  all_goals obtain rfl := next_unique run load
  · exact holds
  · exact iff_of_true rfl matching.symm
  · exact iff_of_true rfl matching.symm
  · exact iff_of_false Bool.false_ne_true (Ne.symm differing)
  · exact holds

theorem exec_keeps_validMeansMatching (i : Instr) (s t : State) (holds : ValidMeansMatching s)
    (run : exec i s = .next t) : ValidMeansMatching t := by
  cases commandShape i
  case seals write sealing _ =>
    obtain rfl := next_unique run (sealing s)
    exact validMeansMatching_sealedWith s _
  case reads response _ read =>
    obtain rfl := next_unique run (read s)
    exact holds
  case loads len raw load => exact loadBuffer_keeps_validMeansMatching holds ((load s).symm.trans run)
  case refuses reserved =>
    obtain rfl := next_unique run (exec_of_mem_reservedInstrs s reserved)
    exact holds

theorem applyReset_validMeansMatching (s : State) : ValidMeansMatching (applyReset s) := by
  rw [applyReset_eq]
  exact iff_of_true rfl (crcf_reset s.cfg)

/-- Under `SCRATCH` no command clears `VALID`: a differing buffer is not committed (R76). -/
theorem exec_keeps_scratchMeansValid {i : Instr} {s t : State} (holds : ScratchMeansValid s)
    (run : exec i s = .next t) : ScratchMeansValid t := by
  cases commandShape i
  case seals write sealing _ =>
    obtain rfl := next_unique run (sealing s)
    exact fun _ => rfl
  case reads response _ read =>
    obtain rfl := next_unique run (read s)
    exact holds
  case loads len raw load =>
    rw [load s] at run
    obtain ⟨-, load⟩ | ⟨-, -, -, load⟩ | ⟨-, -, -, load⟩ | ⟨-, -, overwrite, load⟩ | ⟨-, -, -, load⟩ :=
      loadBuffer_cases len raw s
    all_goals obtain rfl := next_unique run load
    · exact holds
    · exact fun _ => rfl
    · exact fun _ => rfl
    · exact fun scratch => absurd (overwrite.symm.trans scratch) (by decide)
    · exact holds
  case refuses reserved =>
    obtain rfl := next_unique run (exec_of_mem_reservedInstrs s reserved)
    exact holds

end Sys2Proof.Machine

open Sys2Proof Sys2Proof.Machine

/-- Settles O27: sealing and `RESET` stamp the trailer, `LDRAW` sets `VALID` by comparing it, everything else leaves
both. -/
theorem stepKeepsValidMeansMatching : Obligations.StepKeepsValidMeansMatching := fun _ _ =>
  step_keeps (fun _ _ holds => holds) exec_keeps_validMeansMatching fun s _ => applyReset_validMeansMatching s

/-- Settles O28: the parameters stand in the invariant, for what it says of `VALID` is said of the instance. -/
theorem stepKeepsScratchAlwaysValid : Obligations.StepKeepsScratchAlwaysValid := fun s _ holds =>
  step_keeps (P := fun t => ScratchMeansValid t ∧ t.cfg = s.cfg) (fun _ _ holds => holds)
    (fun _ _ _ ⟨valid, cfg⟩ run =>
      ⟨exec_keeps_scratchMeansValid valid run, (surroundings_of_exec run).1.trans cfg⟩)
    (fun u ⟨_, cfg⟩ => by
      rw [applyReset_eq]
      exact ⟨fun _ => rfl, cfg⟩)
    ⟨holds, rfl⟩

/-- Settles O29: after reset `VALID = 1`, and the reset frame is the one `DEFAULT` stamps. -/
theorem resetStateIsValidAndMatching : Obligations.ResetStateIsValidAndMatching := fun c =>
  ⟨iff_of_true rfl (crcf_reset c), fun _ => rfl⟩

/-- Settles O25: an idle step and `RESET` by their equations, a command by `exec_surroundings`. -/
theorem everyStepHasANextState : Obligations.EveryStepHasANextState := by
  have command (i : Instr) (s : State) : ∃ t, exec i s = .next t := by
    obtain ⟨t, -, run, -⟩ := exec_surroundings i s
    exact ⟨t, run⟩
  refine ⟨fun s => ?_, command⟩
  obtain idle | ⟨i, rest, instr⟩ | ⟨rest, restart⟩ := step_cases s
  · exact ⟨s, idle⟩
  · rw [instr]
    exact command i _
  · exact ⟨_, restart⟩

/-- Settles O24. -/
theorem idleStepKeepsEverything : Obligations.IdleStepKeepsEverything := fun _ => step_of_idle

/-- Settles O32: a command puts one response in front of those given, everything else none. -/
theorem givenResponsesNeverChange : Obligations.GivenResponsesNeverChange := by
  intro s t run
  obtain none | ⟨r, one⟩ : t.rsps = s.rsps ∨ ∃ r, t.rsps = r :: s.rsps := by
    obtain idle | ⟨i, rest, instr⟩ | ⟨rest, restart⟩ := step_cases s
    · obtain rfl := next_unique run idle
      exact .inl rfl
    · obtain ⟨-, -, rsps⟩ := surroundings_of_exec (instr.symm.trans run)
      exact .inr rsps
    · obtain rfl := next_unique run restart
      rw [applyReset_eq]
      exact .inl rfl
  · simp [none]
  · simp [one]
end

section
/-! The host's side (spec/20_memory.md R37, spec/70_reset_and_hazards.md R97, R109): the queue does not reach a
command's meaning, and neither do `CREG`, `SHADOW` and the counter reach what the host sees. -/

namespace Sys2Proof.Machine

/-- A matching buffer as the next frame, under either setting of `DECODE_COMMIT` (R76). -/
def State.accepting (s : State) (b : FrameBuf) : State :=
  match s.cfg.decodeCommit with
  | .overwrite => ((s.drawCreg.setF b).setValid true).answer (Response.bare .ok)
  | .scratch => (((s.drawCreg.setShadow b).setF b).setValid true).answer (Response.bare .ok)

/-- A differing buffer turned away, under either setting of `DECODE_COMMIT` (R76). -/
def State.rejecting (s : State) (b : FrameBuf) : State :=
  match s.cfg.decodeCommit with
  | .overwrite => ((s.drawCreg.setF b).setValid false).answer (Response.bare .crcMismatch)
  | .scratch => (s.drawCreg.setShadow b).answer (Response.bare .crcMismatch)

/-- The state after a received buffer (R76). -/
def State.loading (s : State) (len : Nat) (raw : Raw) : State :=
  if len = 8 then
    if RawMatches s.cfg raw then s.accepting (FrameBuf.ofRaw raw) else s.rejecting (FrameBuf.ofRaw raw)
  else s.answer (Response.bare .badLength)

theorem loadBuffer_eq_loading (len : Nat) (raw : Raw) (s : State) :
    loadBuffer len raw s = .next (s.loading len raw) := by
  obtain ⟨hn, load⟩ | ⟨hn, crc, commit, load⟩ | ⟨hn, crc, commit, load⟩ | ⟨hn, crc, commit, load⟩ |
    ⟨hn, crc, commit, load⟩ := loadBuffer_cases len raw s
  · rw [load, State.loading, if_neg hn]
  · rw [load, State.loading, if_pos hn, if_pos ((rawMatches_iff _ _).2 crc), State.accepting, commit]
  · rw [load, State.loading, if_pos hn, if_pos ((rawMatches_iff _ _).2 crc), State.accepting, commit]
  · rw [load, State.loading, if_pos hn, if_neg (mt (rawMatches_iff _ _).1 crc), State.rejecting, commit]
  · rw [load, State.loading, if_pos hn, if_neg (mt (rawMatches_iff _ _).1 crc), State.rejecting, commit]

/-! The queue passes through a command. -/

section Queue

variable (s : State) (es : List Event)

theorem State.accepting_setEvents (b : FrameBuf) : (s.setEvents es).accepting b = (s.accepting b).setEvents es := by
  unfold accepting
  rw [setEvents_cfg]
  cases s.cfg.decodeCommit <;> rfl

theorem State.rejecting_setEvents (b : FrameBuf) : (s.setEvents es).rejecting b = (s.rejecting b).setEvents es := by
  unfold rejecting
  rw [setEvents_cfg]
  cases s.cfg.decodeCommit <;> rfl

theorem State.loading_setEvents (len : Nat) (raw : Raw) :
    (s.setEvents es).loading len raw = (s.loading len raw).setEvents es := by
  unfold loading
  rw [setEvents_cfg, accepting_setEvents, rejecting_setEvents]
  split_ifs <;> rfl

end Queue

/-- A command does with another queue what it does with this one, and leaves that queue. -/
theorem exec_setEvents {i : Instr} {s t : State} (es : List Event) (run : exec i s = .next t) :
    exec i (s.setEvents es) = .next (t.setEvents es) := by
  cases commandShape i
  case seals write sealing _ =>
    obtain rfl := next_unique run (sealing s)
    exact sealing (s.setEvents es)
  case reads response _ read =>
    obtain rfl := next_unique run (read s)
    exact read (s.setEvents es)
  case loads len raw load =>
    obtain rfl := next_unique run ((load s).trans (loadBuffer_eq_loading len raw s))
    rw [load, loadBuffer_eq_loading, State.loading_setEvents]
  case refuses reserved =>
    obtain rfl := next_unique run (exec_of_mem_reservedInstrs s reserved)
    exact exec_of_mem_reservedInstrs (s.setEvents es) reserved

theorem execAll_cons_of_exec {i : Instr} {s t : State} (is : List Instr) (run : exec i s = .next t) :
    execAll (i :: is) s = execAll is t := by
  rw [execAll, run]

theorem run_succ_of_step (M : Host.Core) {s t : M.State} (k : Nat) (run : M.step s = .next t) :
    M.run (k + 1) s = M.run k t := by
  rw [Host.Core.run, run]

/-! What the host sees. -/

section Visible

variable {s s' : State}

theorem visible_eq_iff :
    visible s = visible s' ↔
      s.f = s'.f ∧ s.valid = s'.valid ∧ s.cfg = s'.cfg ∧ s.events = s'.events ∧ s.rsps = s'.rsps := by
  simp only [visible, Prod.mk.injEq]

theorem visible_accepting (same : visible s = visible s') (b : FrameBuf) :
    visible (s.accepting b) = visible (s'.accepting b) := by
  obtain ⟨-, -, cfg, events, rsps⟩ := visible_eq_iff.1 same
  unfold State.accepting
  rw [cfg]
  cases s'.cfg.decodeCommit <;> simp [visible_eq_iff, *]

theorem visible_rejecting (same : visible s = visible s') (b : FrameBuf) :
    visible (s.rejecting b) = visible (s'.rejecting b) := by
  obtain ⟨frame, valid, cfg, events, rsps⟩ := visible_eq_iff.1 same
  unfold State.rejecting
  rw [cfg]
  cases s'.cfg.decodeCommit <;> simp [visible_eq_iff, *]

theorem visible_answer (same : visible s = visible s') (r : Response) :
    visible (s.answer r) = visible (s'.answer r) := by
  obtain ⟨frame, valid, cfg, events, rsps⟩ := visible_eq_iff.1 same
  simp [visible_eq_iff, *]

theorem visible_loading (same : visible s = visible s') (len : Nat) (raw : Raw) :
    visible (s.loading len raw) = visible (s'.loading len raw) := by
  obtain ⟨-, -, cfg, -, -⟩ := visible_eq_iff.1 same
  unfold State.loading
  rw [cfg]
  split_ifs
  · exact visible_accepting same _
  · exact visible_rejecting same _
  · exact visible_answer same _

theorem visible_sealedWith (same : visible s = visible s') (f : FrameBuf) :
    visible (s.sealedWith f) = visible (s'.sealedWith f) := by
  obtain ⟨-, -, cfg, events, rsps⟩ := visible_eq_iff.1 same
  simp [visible_eq_iff, State.sealedWith, *]

theorem visible_setEvents (same : visible s = visible s') (es : List Event) :
    visible (s.setEvents es) = visible (s'.setEvents es) := by
  obtain ⟨frame, valid, cfg, events, rsps⟩ := visible_eq_iff.1 same
  simp [visible_eq_iff, *]

theorem visible_applyReset (same : visible s = visible s') : visible (applyReset s) = visible (applyReset s') := by
  obtain ⟨-, -, cfg, events, rsps⟩ := visible_eq_iff.1 same
  simp [visible_eq_iff, applyReset_eq, *]

/-- What the host sees after a command is a function of what it saw before. -/
theorem visible_of_exec {i : Instr} {t t' : State} (same : visible s = visible s') (run : exec i s = .next t)
    (run' : exec i s' = .next t') : visible t = visible t' := by
  obtain ⟨frame, valid, cfg, events, rsps⟩ := visible_eq_iff.1 same
  cases commandShape i
  case seals write sealing _ =>
    obtain rfl := next_unique run (sealing s)
    obtain rfl := next_unique run' (sealing s')
    rw [frame]
    exact visible_sealedWith same _
  case reads response _ read =>
    obtain rfl := next_unique run (read s)
    obtain rfl := next_unique run' (read s')
    rw [frame, valid, cfg]
    exact visible_answer same _
  case loads len raw load =>
    obtain rfl := next_unique run ((load s).trans (loadBuffer_eq_loading len raw s))
    obtain rfl := next_unique run' ((load s').trans (loadBuffer_eq_loading len raw s'))
    exact visible_loading same len raw
  case refuses reserved =>
    obtain rfl := next_unique run (exec_of_mem_reservedInstrs s reserved)
    obtain rfl := next_unique run' (exec_of_mem_reservedInstrs s' reserved)
    exact visible_answer same _

theorem visible_of_step {t t' : State} (same : visible s = visible s') (run : step s = .next t)
    (run' : step s' = .next t') : visible t = visible t' := by
  obtain ⟨-, -, -, events, -⟩ := visible_eq_iff.1 same
  cases next : s.events with
  | nil =>
    obtain rfl := next_unique run (step_of_idle next)
    obtain rfl := next_unique run' (step_of_idle (events.symm.trans next))
    exact same
  | cons e rest =>
    cases e with
    | command p =>
      rw [step_of_command next] at run
      rw [step_of_command (events.symm.trans next)] at run'
      exact visible_of_exec (visible_setEvents same rest) run run'
    | reset a =>
      obtain rfl := next_unique run (step_of_reset next)
      obtain rfl := next_unique run' (step_of_reset (events.symm.trans next))
      exact visible_applyReset (visible_setEvents same rest)

/-- The end of a run shows part of what is visible. -/
theorem observation_eq_of_visible_eq (same : visible s = visible s') : observation s = observation s' := by
  obtain ⟨frame, valid, -, -, rsps⟩ := visible_eq_iff.1 same
  rw [observation, observation, frame, valid, rsps]

end Visible

/-- A row of the table and the command its words stand for are carried out alike (R55; log entries 10, 11). -/
theorem exec_expand (i : Instr) (s : State) : exec (expand i) s = exec i s := by
  cases i <;> rfl

end Sys2Proof.Machine

open Sys2Proof Sys2Proof.Machine

/-- Settles O22: `step_of_command` for a queued command, and for encodings the round trip at the ports. -/
theorem stepRunsTheDecodedCommand : Obligations.StepRunsTheDecodedCommand :=
  ⟨fun _ _ _ next => step_of_command next, fun s nbits w => step_present s (tablePorts nbits w), fun _ i s _ _ =>
    ⟨(step_present s (encode i)).trans (congrArg (exec · s) (decode_encode i)), exec_expand i s⟩⟩

/-- Settles O26: by induction on the commands; the queue that waits behind a command passes through it. -/
theorem commandsRunInOrderEachOnTheLastState : Obligations.CommandsRunInOrderEachOnTheLastState := by
  intro ps
  induction ps with
  | nil =>
    rintro rest ⟨⟩ rfl
    exact ⟨_, rfl, rfl, rfl, (Nat.zero_add _).symm⟩
  | cons p ps ih =>
    intro rest s queue
    obtain ⟨u, r, run, -, events, rsps⟩ := exec_surroundings (decode p) (s.setEvents rest)
    have first : step s = .next (u.setEvents (ps.map Event.command ++ rest)) :=
      (step_of_command queue).trans (exec_setEvents (s := s.setEvents rest) _ run)
    obtain ⟨t, runs, meanings, left, count⟩ := ih rest (u.setEvents (ps.map Event.command ++ rest)) rfl
    have same : (u.setEvents (ps.map Event.command ++ rest)).setEvents rest = u :=
      State.ext_fields rfl rfl rfl rfl rfl events.symm rfl rfl
    refine ⟨t, (run_succ_of_step Sys2Proof.core _ first).trans runs, ?_, left, ?_⟩
    · rw [List.map_cons]
      exact (execAll_cons_of_exec _ run).trans ((congrArg (execAll _) same).symm.trans meanings)
    · rw [count, State.setEvents_rsps, rsps, List.length_cons, List.length_cons, State.setEvents_rsps]
      omega

/-- Settles O30: what is visible after a step is a function of what was visible before it, event by event. -/
theorem hiddenStateIsNeverObserved : Obligations.HiddenStateIsNeverObserved := by
  intro s s' t t' same run run'
  have after := visible_of_step same run run'
  exact ⟨after, observation_eq_of_visible_eq after⟩

/-- Settles O23: `RESET` and `DEFAULT` both leave the reset frame of the instance. -/
theorem resetEventRestoresTheResetFrame : Obligations.ResetEventRestoresTheResetFrame := by
  intro s abandoned rest next
  refine ⟨_, _, step_of_reset next, exec_defaultFrame s, ?_⟩
  rw [State.sealedWith_f, stampedBuf_blankBuf, applyReset_eq]
  exact ⟨rfl, rfl, rfl, rfl, rfl, rfl, rfl, rfl⟩
end

section
/-! Rules over all commands (spec/10_state.md R15, R16; spec/20_memory.md R34; spec/60_exceptions.md R82, R84, R90). -/

namespace Sys2Proof.Machine

/-! The response port (R53, R82). -/

/-- Whatever the buffer holds, a failed read answers zeros; only `RDRAW` gives `rsp_raw`, only `PARSE` gives fields. -/
theorem rdrawResponse_cases (f : FrameBuf) (v : Bool) (c : Config) :
    rdrawResponse f v c = { Response.bare .ok with raw := f.frame64 } ∨
    rdrawResponse f v c = Response.bare .crcMismatch := by
  unfold rdrawResponse
  split_ifs
  · exact .inl rfl
  · exact .inr rfl

theorem parseAResponse_cases (f : FrameBuf) (v : Bool) (c : Config) :
    (∃ x, parseAResponse f v c = Response.ofFields x) ∨ parseAResponse f v c = Response.bare .crcMismatch := by
  unfold parseAResponse
  split_ifs
  · exact .inl ⟨_, rfl⟩
  · exact .inr rfl

theorem parseBResponse_cases (f : FrameBuf) (v : Bool) (c : Config) :
    (∃ x, parseBResponse f v c = Response.ofFields x) ∨ parseBResponse f v c = Response.bare .crcMismatch := by
  unfold parseBResponse
  split_ifs
  · exact .inl ⟨_, rfl⟩
  · exact .inr rfl

/-- The answer to a read: the frame to `RDRAW` alone, fields to `PARSE` alone, or nothing but an error. -/
theorem exec_read_answers {i : Instr} (read : i = .rdraw ∨ i = .parseA ∨ i = .parseB) (s : State) :
    ∃ r, exec i s = .next (s.answer r) ∧
      ((i = .rdraw ∧ r = { Response.bare .ok with raw := s.f.frame64 }) ∨
        ((i = .parseA ∨ i = .parseB) ∧ ∃ x, r = Response.ofFields x) ∨ r = Response.bare .crcMismatch) := by
  obtain rfl | rfl | rfl := read
  · exact ⟨_, exec_rdraw s, (rdrawResponse_cases _ _ _).imp (fun ok => ⟨rfl, ok⟩) .inr⟩
  · exact ⟨_, exec_parseA s, .inr ((parseAResponse_cases _ _ _).imp (fun ok => ⟨.inl rfl, ok⟩) id)⟩
  · exact ⟨_, exec_parseB s, .inr ((parseBResponse_cases _ _ _).imp (fun ok => ⟨.inr rfl, ok⟩) id)⟩

/-- The three kinds of response over all commands (R53). -/
theorem exec_response (i : Instr) (s : State) :
    ∃ t r, exec i s = .next t ∧ t.rsps = r :: s.rsps ∧
      ((i = .rdraw ∧ r = { Response.bare .ok with raw := s.f.frame64 }) ∨
        ((i = .parseA ∨ i = .parseB) ∧ ∃ x, r = Response.ofFields x) ∨ ∃ st, r = Response.bare st) := by
  cases commandShape i
  case seals write sealing _ => exact ⟨_, _, sealing s, rfl, .inr (.inr ⟨_, rfl⟩)⟩
  case reads _ read _ =>
    obtain ⟨r, run, kinds⟩ := exec_read_answers read s
    exact ⟨_, r, run, rfl, kinds.imp id (Or.imp id fun bare => ⟨_, bare⟩)⟩
  case loads len raw load =>
    obtain ⟨t, st, run, -, -, rsps⟩ := loadBuffer_surroundings len raw s
    exact ⟨t, _, (load s).trans run, rsps, .inr (.inr ⟨st, rfl⟩)⟩
  case refuses reserved => exact ⟨_, _, exec_of_mem_reservedInstrs s reserved, rfl, .inr (.inr ⟨_, rfl⟩)⟩

/-- A read while `VALID = 0` answers zeros (R84). -/
theorem exec_read_of_invalid {i : Instr} (read : i = .rdraw ∨ i = .parseA ∨ i = .parseB) {s : State}
    (invalid : s.valid = false) : exec i s = .next (s.answer (Response.bare .crcMismatch)) := by
  obtain rfl | rfl | rfl := read
  · exact exec_rdraw_invalid invalid
  · exact exec_parseA_invalid invalid
  · exact exec_parseB_invalid invalid

/-- The status a numeric code stands for (R83). -/
def statusOfCode (code : BitVec 2) : Status :=
  if code = 0#2 then .ok else if code = 1#2 then .crcMismatch else if code = 2#2 then .badLength else .badCommand

theorem statusOfCode_statusCode (st : Status) : statusOfCode (statusCode st) = st := by
  cases st <;> rfl

theorem statusCode_injective : Function.Injective statusCode := Function.LeftInverse.injective statusOfCode_statusCode

/-! A command repeated (R34). -/

/-- Sealing again stamps the frame that stands there. -/
theorem stampedBuf_again {write : FrameBuf → FrameBuf} (c : Config) (f : FrameBuf)
    (again : ∀ g : FrameBuf, g.hdr = (write f).hdr → g.pay = (write f).pay →
      (write g).hdr = (write f).hdr ∧ (write g).pay = (write f).pay) :
    stampedBuf c (write (stampedBuf c (write f))) = stampedBuf c (write f) := by
  obtain ⟨hdr, pay⟩ := again (stampedBuf c (write f)) (stampedBuf_hdr c _) (stampedBuf_pay c _)
  exact stampedBuf_congr c hdr pay

/-- The same buffer loaded twice: the comparison has the same outcome, and what it commits is the same (R76). -/
theorem loadBuffer_again (len : Nat) (raw : Raw) (s : State) :
    ∃ t u, loadBuffer len raw s = .next t ∧ loadBuffer len raw t = .next u ∧ u.f = t.f ∧ u.valid = t.valid ∧
      u.rsps.head? = t.rsps.head? := by
  by_cases eight : len = 8
  · subst eight
    by_cases matching : RawMatches s.cfg raw
    · obtain ⟨t, run, frame, valid, rsps, cfg, -⟩ := loadBuffer_of_rawMatches matching
      obtain ⟨u, run', frame', valid', rsps', -⟩ := loadBuffer_of_rawMatches (s := t) (cfg ▸ matching)
      exact ⟨t, u, run, run', frame'.trans frame.symm, valid'.trans valid.symm, by rw [rsps', rsps]; rfl⟩
    · obtain ⟨t, run, rsps, cfg, -, overwrite, -⟩ := loadBuffer_of_not_rawMatches matching
      obtain ⟨u, run', rsps', -, -, overwrite', scratch'⟩ := loadBuffer_of_not_rawMatches (s := t) (cfg ▸ matching)
      rw [cfg] at overwrite' scratch'
      refine ⟨t, u, run, run', ?_⟩
      rw [rsps', rsps]
      cases commit : s.cfg.decodeCommit
      case overwrite =>
        obtain ⟨frame, valid, -⟩ := overwrite commit
        obtain ⟨frame', valid', -⟩ := overwrite' commit
        exact ⟨frame'.trans frame.symm, valid'.trans valid.symm, rfl⟩
      case scratch =>
        obtain ⟨frame, valid, -⟩ := scratch' commit
        exact ⟨frame, valid, rfl⟩
  · exact ⟨_, _, exec_ldraw_of_length_ne eight raw s, exec_ldraw_of_length_ne eight raw _, rfl, rfl, rfl⟩

/-! `VALID` after a received buffer (R16, R76). -/

section LoadingValid

variable (s : State) (b : FrameBuf)

theorem State.accepting_valid : (s.accepting b).valid = true := by
  unfold accepting
  cases s.cfg.decodeCommit <;> rfl

theorem State.rejecting_valid :
    (s.rejecting b).valid = if s.cfg.decodeCommit = .overwrite then false else s.valid := by
  unfold rejecting
  cases s.cfg.decodeCommit <;> rfl

theorem State.loading_valid (len : Nat) (raw : Raw) :
    (s.loading len raw).valid =
      if len = 8 then
        if RawMatches s.cfg raw then true else if s.cfg.decodeCommit = .overwrite then false else s.valid
      else s.valid := by
  rw [loading, apply_ite State.valid, apply_ite State.valid, accepting_valid, rejecting_valid, answer_valid]

end LoadingValid

/-! The bytes of a frame that a command leaves (R15). -/

/-- A frame sealed with the header bytes that stood there keeps them. -/
theorem sealedWith_header_bytes {s : State} {f : FrameBuf} (b0 : f.b0 = s.f.b0) (b1 : f.b1 = s.f.b1) :
    (s.sealedWith f).f.get 0 = s.f.get 0 ∧ (s.sealedWith f).f.get 1 = s.f.get 1 :=
  ⟨(stampedBuf_b0 s.cfg f).trans b0, (stampedBuf_b1 s.cfg f).trans b1⟩

/-- Neither form of `FILL` writes a header byte (R69, R70). -/
theorem filled_header_bytes (x : Fields) (f : FrameBuf) :
    ((filledA x f).b0 = f.b0 ∧ (filledA x f).b1 = f.b1) ∧ (filledB x f).b0 = f.b0 ∧ (filledB x f).b1 = f.b1 := by
  rw [filledA, FrameBuf.memWrite_payload, filledB, FrameBuf.memWrite_seg1, FrameBuf.memWrite_seg0]
  exact ⟨⟨rfl, rfl⟩, rfl, rfl⟩

/-- A read or a reserved word changes nothing but the responses (R73, R78, R79, R86). -/
theorem exec_of_reads_or_reserved {p : Ports} (s : State)
    (kind : commandKind p.cmdOp = .reads ∨ commandKind p.cmdOp = .reserved) :
    ∃ r, exec (decode p) s = .next (s.answer r) := by
  obtain reads | reserved := kind
  · obtain ⟨r, run, -⟩ := exec_read_answers (decode_of_reads reads) s
    exact ⟨r, run⟩
  · have word := (commandKind_eq_reserved_iff p.cmdOp).1 reserved
    exact ⟨_, exec_of_mem_reservedInstrs s (decode_mem_reservedInstrs word)⟩

/-! The halves of a received frame (R42, R52). -/

namespace FrameBuf

/-- Two neighbouring byte lanes are the half that begins at the lower one. -/
theorem rawByte_append_rawByte (raw : Raw) (i : Nat) :
    (rawByte raw (i + 1) ++ rawByte raw i : BitVec 16) = raw.extractLsb' (8 * i) 16 := by
  apply BitVec.eq_of_toNat_eq
  rw [append_toNat, rawByte, rawByte, extract_toNat, extract_toNat, extract_toNat, Nat.mul_add, Nat.pow_add,
    ← Nat.div_div_eq_div_mul]
  omega

section OfRaw

variable (raw : Raw)

theorem ofRaw_hdr : (ofRaw raw).hdr = raw.extractLsb' 0 16 := (hdr_eq _).trans (rawByte_append_rawByte raw 0)

theorem ofRaw_seg0 : (ofRaw raw).seg0 = raw.extractLsb' 16 16 := (seg0_eq _).trans (rawByte_append_rawByte raw 2)

theorem ofRaw_seg1 : (ofRaw raw).seg1 = raw.extractLsb' 32 16 := (seg1_eq _).trans (rawByte_append_rawByte raw 4)

theorem ofRaw_crcf : (ofRaw raw).crcf = raw.extractLsb' 48 16 := (crcf_eq _).trans (rawByte_append_rawByte raw 6)

theorem ofRaw_pay : (ofRaw raw).pay = (raw.extractLsb' 32 16 ++ raw.extractLsb' 16 16 : BitVec 32) := by
  rw [pay_eq, ofRaw_seg1, ofRaw_seg0]

/-- `FRAME64` of the eight bytes that were received is the value received (R42). -/
theorem frame64_ofRaw : (ofRaw raw).frame64 = raw := by
  have sum : (ofRaw raw).frame64.toNat = (ofRaw raw).crcf.toNat * 2 ^ 48 + (ofRaw raw).seg1.toNat * 2 ^ 32 +
      (ofRaw raw).seg0.toNat * 2 ^ 16 + (ofRaw raw).hdr.toNat := by
    rw [frame64_eq]
    simp only [append_toNat]
    omega
  obtain ⟨h3, h2, h1, h0⟩ := halves_of_toNat_eq sum
  exact eq_of_halves_eq (h3.trans (ofRaw_crcf raw)) (h2.trans (ofRaw_seg1 raw)) (h1.trans (ofRaw_seg0 raw))
    (h0.trans (ofRaw_hdr raw))

end OfRaw

end FrameBuf

end Sys2Proof.Machine

open Sys2Proof Sys2Proof.Machine

/-- Settles O31: the response is the frame to `RDRAW`, fields to `PARSE`, or bare. -/
theorem everyCommandAnswersOnce : Obligations.EveryCommandAnswersOnce := by
  intro i s
  obtain ⟨t, r, run, rsps, kinds⟩ := exec_response i s
  refine ⟨t, r, run, rsps, ?_⟩
  obtain ⟨rdraw, rfl⟩ | ⟨parse, x, rfl⟩ | ⟨st, rfl⟩ := kinds
  · exact ⟨fun error => absurd rfl error, fun other => absurd rdraw other, fun _ _ => ⟨rfl, rfl, rfl, rfl, rfl⟩⟩
  · exact ⟨fun error => absurd rfl error, fun _ => rfl, fun notA notB => (parse.elim notA notB).elim⟩
  · exact ⟨fun _ => rfl, fun _ => rfl, fun _ _ => ⟨rfl, rfl, rfl, rfl, rfl⟩⟩

/-- Settles O49. -/
theorem statusCodesAreAsTabulated : Obligations.StatusCodesAreAsTabulated :=
  ⟨rfl, rfl, rfl, rfl, fun _ _ same => statusCode_injective same⟩

/-- Settles O54: with either buffer the read answers a bare `CrcMismatch`. -/
theorem rejectedBytesCannotBeRead : Obligations.RejectedBytesCannotBeRead := fun _ s g read invalid =>
  ⟨_, _, exec_read_of_invalid read invalid, exec_read_of_invalid (s := { s with f := g }) read invalid, rfl, rfl, rfl⟩

/-- Settles O53: a sealed frame is sealed with itself, a buffer is compared alike, and everything else leaves `F` and
`VALID`. -/
theorem repeatingACommandChangesNothingMore : Obligations.RepeatingACommandChangesNothingMore := by
  intro i s
  cases commandShape i
  case seals write sealing again =>
    exact ⟨_, _, sealing s, sealing _, stampedBuf_again s.cfg s.f (again s.f), rfl, rfl⟩
  case reads response _ read => exact ⟨_, _, read s, read _, rfl, rfl, rfl⟩
  case loads len raw load =>
    obtain ⟨t, u, run, run', same⟩ := loadBuffer_again len raw s
    exact ⟨t, u, (load s).trans run, (load t).trans run', same⟩
  case refuses reserved =>
    exact ⟨_, _, exec_of_mem_reservedInstrs s reserved, exec_of_mem_reservedInstrs _ reserved, rfl, rfl, rfl⟩

/-- Settles O50: kind by kind of the command word. -/
theorem validIsWrittenOnlyAsListed : Obligations.ValidIsWrittenOnlyAsListed := by
  intro p s
  simp only [← commandKind_eq_encodes_iff, ← commandKind_eq_loads_iff]
  cases kind : commandKind p.cmdOp
  case encodes =>
    obtain ⟨f, run⟩ := exec_of_encodes s kind
    exact ⟨_, run, rfl, rfl⟩
  case reads =>
    obtain ⟨r, run⟩ := exec_of_reads_or_reserved s (.inl kind)
    exact ⟨_, run, rfl, rfl⟩
  case reserved =>
    obtain ⟨r, run⟩ := exec_of_reads_or_reserved s (.inr kind)
    exact ⟨_, run, rfl, rfl⟩
  case loads =>
    rw [decode_of_loads kind]
    refine ⟨_, loadBuffer_eq_loading p.opRawLen p.opRaw s, rfl, (s.loading_valid p.opRawLen p.opRaw).trans ?_⟩
    simp only [reduceCtorEq, if_false, true_and]

/-- Settles O51: reads and reserved words answer only; of the words that seal a frame, `UPDCRC` writes nothing in front
of the trailer and `FILL` no header byte. -/
theorem bytesEachCommandMayChange : Obligations.BytesEachCommandMayChange := by
  intro p s
  simp only [← commandKind_eq_reserved_iff]
  cases kind : commandKind p.cmdOp
  case reads =>
    obtain ⟨r, run⟩ := exec_of_reads_or_reserved s (.inl kind)
    exact ⟨_, run, fun _ _ => ⟨rfl, rfl⟩, fun _ _ _ => rfl, fun _ => rfl, rfl, rfl⟩
  case reserved =>
    obtain ⟨r, run⟩ := exec_of_reads_or_reserved s (.inr kind)
    exact ⟨_, run, fun _ _ => ⟨rfl, rfl⟩, fun _ _ _ => rfl, fun _ => rfl, rfl, rfl⟩
  case loads =>
    obtain ⟨t, -, run, cfg, events, -⟩ := exec_surroundings (decode p) s
    have word := (commandKind_eq_loads_iff p.cmdOp).1 kind
    exact ⟨t, run, fun _ other => absurd word other, by simp [word], by simp [word], cfg, events⟩
  case encodes =>
    obtain ⟨op, w, r, g, d, n, raw⟩ := p
    obtain rfl | rfl | rfl | rfl := (commandKind_eq_encodes_iff op).1 kind
    · rw [decode_0000]
      exact ⟨_, exec_defaultFrame s, fun other => absurd rfl other, by simp, by simp, s.sealedWith_cfg _,
        s.sealedWith_events _⟩
    · rw [decode_0001]
      obtain ⟨⟨b0, b1⟩, -⟩ := filled_header_bytes (assemble w r g d) s.f
      exact ⟨_, exec_fillA_eq_sealedWith w r g d s, fun _ _ => sealedWith_header_bytes b0 b1, by simp, by simp,
        s.sealedWith_cfg _, s.sealedWith_events _⟩
    · rw [decode_1001]
      obtain ⟨-, b0, b1⟩ := filled_header_bytes (assemble w r g d) s.f
      exact ⟨_, exec_fillB_eq_sealedWith w r g d s, fun _ _ => sealedWith_header_bytes b0 b1, by simp, by simp,
        s.sealedWith_cfg _, s.sealedWith_events _⟩
    · rw [decode_0010]
      exact ⟨_, exec_updcrc s, fun _ _ => sealedWith_header_bytes rfl rfl,
        fun _ i below => stampedBuf_get s.cfg s.f below, by simp, s.sealedWith_cfg _, s.sealedWith_events _⟩

/-- Settles O52: every command that seals a frame and a matching `LDRAW` set `VALID`, and the header is that of the
frame before the stamp. -/
theorem recoveryFromRejectedBytes : Obligations.RecoveryFromRejectedBytes := by
  intro s _
  refine ⟨⟨_, exec_defaultFrame s, rfl, ?_⟩, fun w r g d => ⟨_, exec_fillA_eq_sealedWith w r g d s, rfl, ?_⟩,
    fun w r g d => ⟨_, exec_fillB_eq_sealedWith w r g d s, rfl, ?_⟩,
    ⟨_, exec_updcrc s, rfl, stampedBuf_hdr s.cfg s.f, stampedBuf_pay s.cfg s.f⟩, fun raw matching => ?_,
    fun raw differing commit => ?_, fun a => ⟨_, step_of_reset (s := s.setEvents (.reset a :: s.events)) rfl, ?_⟩⟩
  · rw [State.sealedWith_f, stampedBuf_hdr, blankBuf_hdr, headerMagic]
  · rw [State.sealedWith_f, stampedBuf_hdr, filledA_hdr]
  · rw [State.sealedWith_f, stampedBuf_hdr, filledB_hdr]
  · obtain ⟨t, run, -, valid, -⟩ := loadBuffer_of_rawMatches matching
    exact ⟨t, run, valid⟩
  · obtain ⟨t, run, -, -, -, overwrite, -⟩ := loadBuffer_of_not_rawMatches differing
    obtain ⟨bytes, valid, -⟩ := overwrite commit
    exact ⟨t, run, valid, bytes ▸ FrameBuf.frame64_ofRaw raw⟩
  · rw [applyReset_eq]

/-- Settles O42: a frame row is a load of its eight bytes, whose halves are the header, the payload's two and the
trailer. -/
theorem receivedFramesAreLoaded : Obligations.ReceivedFramesAreLoaded := by
  intro k a w r g d s
  obtain ⟨trailerA, ctrlA, dataA, headerA⟩ := frameWordA_halves k ⟨a, w, r, g, d⟩
  obtain ⟨trailerB, dataB, ctrlB, headerB⟩ := frameWordB_halves k ⟨a, w, r, g, d⟩
  refine ⟨fun matching => ?_, fun differing => ?_, fun matching => ?_, fun differing => ?_⟩
  · obtain ⟨t, run, bytes, valid, rsps, cfg, events, -⟩ := loadBuffer_of_rawMatches matching
    refine ⟨t, run, ?_, ?_, ?_, valid, rsps, cfg, events⟩ <;> rw [bytes]
    · rw [FrameBuf.ofRaw_hdr, headerA, headerMagic]
    · rw [FrameBuf.ofRaw_pay, ctrlA, dataA, payA_eq]
    · rw [FrameBuf.ofRaw_crcf, trailerA]
  · obtain ⟨t, run, rsps, cfg, events, -⟩ := loadBuffer_of_not_rawMatches differing
    exact ⟨t, run, rsps, cfg, events⟩
  · obtain ⟨t, run, bytes, valid, rsps, cfg, events, -⟩ := loadBuffer_of_rawMatches matching
    refine ⟨t, run, ?_, ?_, ?_, ?_, valid, rsps, cfg, events⟩ <;> rw [bytes]
    · rw [FrameBuf.ofRaw_hdr, headerB, headerMagic]
    · rw [FrameBuf.ofRaw_seg0, ctrlB]
    · rw [FrameBuf.ofRaw_seg1, dataB]
    · rw [FrameBuf.ofRaw_crcf, trailerB]
  · obtain ⟨t, run, rsps, cfg, events, -⟩ := loadBuffer_of_not_rawMatches differing
    exact ⟨t, run, rsps, cfg, events⟩

/-- Settles O55: seven words evaluated. -/
theorem tableWordsDecodeToTheirRows : Obligations.TableWordsDecodeToTheirRows := by
  unfold Obligations.TableWordsDecodeToTheirRows
  decide +kernel
end

section
/-! The CRC register as a linear map (spec/40_crc_generator.md R62, R64): `CRC.BIT` is linear in the register and the
bit that enters, a zero bit is one step `crcShiftStep`, and that step is injective. -/

namespace Sys2Proof.Machine

/-! Linearity. -/

theorem crcBitStep_xor (c c' : Half) (d d' : Bool) :
    crcBitStep (c ^^^ c') (d ^^ d') = crcBitStep c d ^^^ crcBitStep c' d' := by
  apply BitVec.eq_of_getLsbD_eq
  intro i hi
  rw [BitVec.getLsbD_xor]
  simp only [crcBitStep_getLsbD _ _ hi, BitVec.getLsbD_xor, Bool.and_xor_distrib_left, Bool.and_xor_distrib_right,
    Bool.xor_assoc, Bool.xor_left_comm]

theorem crcByteStep_eq (c : Half) (b : Byte) :
    crcByteStep c b =
      crcBitStep (crcBitStep (crcBitStep (crcBitStep (crcBitStep (crcBitStep (crcBitStep (crcBitStep c (b.getLsbD 7))
        (b.getLsbD 6)) (b.getLsbD 5)) (b.getLsbD 4)) (b.getLsbD 3)) (b.getLsbD 2)) (b.getLsbD 1)) (b.getLsbD 0) := rfl

theorem crcByteStep_xor (c c' : Half) (b b' : Byte) :
    crcByteStep (c ^^^ c') (b ^^^ b') = crcByteStep c b ^^^ crcByteStep c' b' := by
  simp only [crcByteStep_eq, BitVec.getLsbD_xor, crcBitStep_xor]

@[simp] theorem crcRegister_nil (c : Half) : crcRegister c [] = c := rfl

@[simp] theorem crcRegister_cons (c : Half) (b : Byte) (bs : List Byte) :
    crcRegister c (b :: bs) = crcRegister (crcByteStep c b) bs := rfl

theorem crcRegister_append (c : Half) (as bs : List Byte) :
    crcRegister c (as ++ bs) = crcRegister (crcRegister c as) bs := List.foldl_append

/-- Registers started apart and fed apart, taken together (R64 law 1). -/
theorem crcRegister_xor : ∀ (c c' : Half) (as bs : List Byte), as.length = bs.length →
    crcRegister (c ^^^ c') (xorBytes as bs) = crcRegister c as ^^^ crcRegister c' bs
  | _, _, [], [], _ => rfl
  | c, c', a :: as, b :: bs, same => by
    rw [xorBytes, List.zipWith_cons_cons, crcRegister_cons, crcByteStep_xor]
    exact crcRegister_xor _ _ as bs (Nat.succ.inj same)

theorem crc16_eq (bytes : List Byte) : crc16 bytes = crcRegister 0xFFFF#16 bytes ^^^ 0xFFFF#16 := rfl

/-- A change of a message changes its CRC by `RAW` of the change (R64 law 1). -/
theorem crc16_xorBytes {a b : List Byte} (same : a.length = b.length) :
    crc16 (xorBytes a b) = crc16 a ^^^ crcRaw b := by
  have split := crcRegister_xor 0xFFFF#16 0#16 a b same
  rw [BitVec.xor_zero] at split
  rw [crc16_eq, crc16_eq, crcRaw, split, BitVec.xor_assoc, BitVec.xor_assoc, BitVec.xor_comm (0xFFFF#16)]

theorem crcRaw_xorBytes {a b : List Byte} (same : a.length = b.length) :
    crcRaw (xorBytes a b) = crcRaw a ^^^ crcRaw b := crcRegister_xor 0#16 0#16 a b same

/-- Of two CRCs together the initial registers and the inversions cancel. -/
theorem crc16_xor_crc16 {a b : List Byte} (same : a.length = b.length) :
    crc16 a ^^^ crc16 b = crcRaw a ^^^ crcRaw b := by
  have registers : crcRaw (xorBytes a b) = crcRegister 0xFFFF#16 a ^^^ crcRegister 0xFFFF#16 b := by
    rw [← crcRegister_xor _ _ a b same, BitVec.xor_self, crcRaw]
  rw [← crcRaw_xorBytes same, registers, crc16_eq, crc16_eq, BitVec.xor_assoc,
    BitVec.xor_comm (crcRegister 0xFFFF#16 b), ← BitVec.xor_assoc 0xFFFF#16, BitVec.xor_self, BitVec.zero_xor]

theorem xorBytes_length (a b : List Byte) : (xorBytes a b).length = min a.length b.length := List.length_zipWith

theorem crc16_nil : crc16 [] = 0x0000#16 := by decide

/-- The check value of the algorithm: the ASCII digits 1 to 9. -/
theorem crc16_digits :
    crc16 [0x31#8, 0x32#8, 0x33#8, 0x34#8, 0x35#8, 0x36#8, 0x37#8, 0x38#8, 0x39#8] = 0xD64E#16 := by decide +kernel

/-- A computation leaves every field but `CREG` and the counter of free values (R66). -/
theorem crcRun_writes_creg_only (s : State) (bytes : List Byte) :
    (crcRun s bytes).2 = { s with creg := (crcRun s bytes).2.creg, draws := (crcRun s bytes).2.draws } := by
  rw [crcRun_eq]
  rfl

/-! The shift step: what a zero bit does. -/

theorem crcBitStep_false (c : Half) : crcBitStep c false = crcShiftStep c := by
  rw [crcBitStep, Bool.xor_false]
  rfl

/-- A zero byte is eight shift steps. -/
theorem crcByteStep_zero (c : Half) : crcByteStep c 0#8 = crcShiftStep^[8] c := by
  simp only [crcByteStep_eq, BitVec.getLsbD_zero, crcBitStep_false]
  rfl

theorem crcShiftStep_xor (c c' : Half) : crcShiftStep (c ^^^ c') = crcShiftStep c ^^^ crcShiftStep c' := by
  simp only [← crcBitStep_false]
  exact crcBitStep_xor c c' false false

theorem iterate_crcShiftStep_xor (n : Nat) (c c' : Half) :
    crcShiftStep^[n] (c ^^^ c') = crcShiftStep^[n] c ^^^ crcShiftStep^[n] c' := by
  induction n generalizing c c' with
  | zero => rfl
  | succ n ih => rw [Function.iterate_succ_apply, crcShiftStep_xor, ih, ← Function.iterate_succ_apply,
      ← Function.iterate_succ_apply]

/-- The bottom bit after a shift step tells whether the top bit went out, so nothing is lost. -/
theorem eq_zero_of_crcShiftStep_eq_zero {c : Half} (zero : crcShiftStep c = 0#16) : c = 0#16 := by
  rw [← crcBitStep_false] at zero
  have bit (j : Nat) : (crcBitStep c false).getLsbD j = false := by rw [zero, BitVec.getLsbD_zero]
  have top : c.getLsbD 15 = false := by
    have bottom := bit 0
    rwa [crcBitStep_getLsbD_zero, Bool.xor_false] at bottom
  apply BitVec.eq_of_getLsbD_eq
  intro j hj
  rw [BitVec.getLsbD_zero]
  by_cases last : j = 15
  · rw [last, top]
  · have above := bit (j + 1)
    rw [crcBitStep_getLsbD _ _ (by omega), top] at above
    simpa using above

theorem crcShiftStep_injective : Function.Injective crcShiftStep := by
  intro c c' same
  rw [← BitVec.xor_eq_zero_iff]
  apply eq_zero_of_crcShiftStep_eq_zero
  rw [crcShiftStep_xor, same, BitVec.xor_self]

/-! One bit of a message: a power of the shift step (R64). -/

theorem crcRegister_replicate_zero (n : Nat) (c : Half) :
    crcRegister c (List.replicate n 0#8) = crcShiftStep^[8 * n] c := by
  induction n generalizing c with
  | zero => rfl
  | succ n ih =>
    rw [List.replicate_succ, crcRegister_cons, ih, crcByteStep_zero, ← Function.iterate_add_apply]
    rfl

theorem iterate_crcShiftStep_zero (n : Nat) : crcShiftStep^[n] 0#16 = 0#16 := Function.iterate_fixed (by decide) n

/-- Bit `j` of a byte on an empty register stands `16 + j` steps above bit 0 of the register. -/
theorem crcByteStep_one_shifted : ∀ j < 8, crcByteStep 0#16 (1#8 <<< j) = crcShiftStep^[16 + j] 1#16 := by
  decide +kernel

/-- `RAW` of a one-bit sequence: the zero bytes before it do nothing, every bit after it is one more shift step. -/
theorem crcRaw_oneBitBytes (before after : Nat) {j : Nat} (hj : j < 8) :
    crcRaw (oneBitBytes before j after) = crcShiftStep^[8 * after + (16 + j)] 1#16 := by
  rw [crcRaw, oneBitBytes, crcRegister_append, crcRegister_cons, crcRegister_replicate_zero, crcRegister_replicate_zero,
    iterate_crcShiftStep_zero, crcByteStep_one_shifted j hj, ← Function.iterate_add_apply]

theorem iterate_crcShiftStep_one_ne_zero (n : Nat) : crcShiftStep^[n] 1#16 ≠ 0#16 := by
  intro zero
  rw [← iterate_crcShiftStep_zero n] at zero
  exact absurd (crcShiftStep_injective.iterate n zero) (by decide)

/-- A bit in the register is a power of the shift step. -/
theorem one_shifted_eq_iterate : ∀ j < 16, 1#16 <<< j = crcShiftStep^[j] 1#16 := by decide +kernel

/-- The shift step does not return to 1 within the 64 bits of a frame. -/
theorem iterate_crcShiftStep_one_ne_one : ∀ n < 64, 0 < n → crcShiftStep^[n] 1#16 ≠ 1#16 := by decide +kernel

/-- So the powers below 64 are all different. -/
theorem iterate_crcShiftStep_one_inj {m n : Nat} (hm : m < 64) (hn : n < 64)
    (same : crcShiftStep^[m] 1#16 = crcShiftStep^[n] 1#16) : m = n := by
  wlog le : m ≤ n generalizing m n
  · exact (this hn hm same.symm (by omega)).symm
  obtain ⟨k, rfl⟩ := Nat.exists_eq_add_of_le le
  rw [Function.iterate_add_apply] at same
  have period : 1#16 = crcShiftStep^[k] 1#16 := crcShiftStep_injective.iterate m same
  by_contra different
  exact iterate_crcShiftStep_one_ne_one k (by omega) (by omega) period.symm

/-- The power of the shift step that bit `k` of a six-byte message is. -/
theorem crcRaw_oneBit_of_six {k : Nat} (hk : k < 48) :
    ∃ e, e = 8 * (5 - k / 8) + (16 + k % 8) ∧ 16 ≤ e ∧ e < 64 ∧
      crcRaw (oneBitBytes (k / 8) (k % 8) (5 - k / 8)) = crcShiftStep^[e] 1#16 :=
  ⟨_, rfl, by omega, by omega, crcRaw_oneBitBytes _ _ (Nat.mod_lt _ (by decide))⟩

theorem oneBitBytes_length (before j after : Nat) : (oneBitBytes before j after).length = before + 1 + after := by
  simp only [oneBitBytes, List.length_append, List.length_cons, List.length_replicate]
  omega

/-! The equivalent forms (R62). -/

/-- A byte in the high half of the register is a byte entered on an empty register. -/
theorem iterate_crcShiftStep_high_byte : ∀ b : Byte, crcShiftStep^[8] (b.setWidth 16 <<< 8) = crcByteStep 0#16 b := by
  decide +kernel

/-- From the low half of the register nothing goes out within eight steps. -/
theorem iterate_crcShiftStep_low_byte : ∀ b : Byte, crcShiftStep^[8] (b.setWidth 16) = b.setWidth 16 <<< 8 := by
  decide +kernel

/-- A byte enters independently of what the register holds. -/
theorem crcByteStep_eq_xor (c : Half) (b : Byte) : crcByteStep c b = crcShiftStep^[8] c ^^^ crcByteStep 0#16 b := by
  rw [← crcByteStep_zero, ← crcByteStep_xor, BitVec.xor_zero, BitVec.zero_xor]

theorem crcByteXorForm_eq (c : Half) (b : Byte) : crcByteXorForm c b = crcByteStep c b := by
  have form : crcByteXorForm c b = crcShiftStep^[8] (c ^^^ (b.setWidth 16 <<< 8)) := rfl
  rw [form, iterate_crcShiftStep_xor, iterate_crcShiftStep_high_byte, ← crcByteStep_eq_xor]

/-- The table lists the registers of the 256 bytes (R62). -/
theorem crcTable_eq_map : crcTable = (List.range 256).map fun i => crcByteStep 0x0000#16 (BitVec.ofNat 8 i) := by
  decide +kernel

theorem crcTable_length : crcTable.length = 256 := by rw [crcTable_eq_map, List.length_map, List.length_range]

theorem crcTable_getElem? (i : Nat) (hi : i < 256) :
    crcTable[i]? = some (crcByteStep 0x0000#16 (BitVec.ofNat 8 i)) := by
  rw [crcTable_eq_map, List.getElem?_map, List.getElem?_range hi, Option.map_some]

theorem crcTable_getD (b : Byte) : crcTable.getD b.toNat 0#16 = crcByteStep 0#16 b := by
  rw [List.getD_eq_getElem?_getD, crcTable_getElem? b.toNat b.isLt, Option.getD_some, BitVec.ofNat_toNat,
    BitVec.setWidth_eq]

/-- The register is its two bytes. -/
theorem eq_high_xor_low (c : Half) :
    c = ((c >>> 8).setWidth 8).setWidth 16 <<< 8 ^^^ (c.setWidth 8).setWidth 16 := by
  apply BitVec.eq_of_getLsbD_eq
  intro i hi
  by_cases low : i < 8
  · simp [low, hi]
  · have inHigh : i - 8 < 8 := by omega
    have place : 8 + (i - 8) = i := by omega
    simp [low, hi, inHigh, place]

/-- One table lookup is a byte step: eight shift steps move the low byte up, and the high byte and the byte that enters
meet in the table's index. -/
theorem crcByteTableForm_eq (c : Half) (b : Byte) : crcByteTableForm c b = crcByteStep c b := by
  have high_out : ∀ x y : Byte, (x.setWidth 16 <<< 8 ^^^ y.setWidth 16 : Half) <<< 8 = y.setWidth 16 <<< 8 := by
    intro x y
    rw [BitVec.shiftLeft_xor_distrib, ← BitVec.shiftLeft_add,
      BitVec.shiftLeft_eq_zero (by decide : 16 ≤ 8 + 8), BitVec.zero_xor]
  have lookup : crcByteStep 0#16 ((c >>> 8).setWidth 8 ^^^ b) =
      crcByteStep 0#16 ((c >>> 8).setWidth 8) ^^^ crcByteStep 0#16 b := by
    rw [← crcByteStep_xor, BitVec.xor_zero]
  calc crcByteTableForm c b
      = c <<< 8 ^^^ crcByteStep 0#16 ((c >>> 8).setWidth 8 ^^^ b) := by rw [crcByteTableForm, crcTable_getD]
    _ = (c.setWidth 8).setWidth 16 <<< 8 ^^^
          (crcByteStep 0#16 ((c >>> 8).setWidth 8) ^^^ crcByteStep 0#16 b) := by
        rw [lookup, ← high_out ((c >>> 8).setWidth 8) (c.setWidth 8), ← eq_high_xor_low]
    _ = crcShiftStep^[8] (((c >>> 8).setWidth 8).setWidth 16 <<< 8 ^^^ (c.setWidth 8).setWidth 16) ^^^
          crcByteStep 0#16 b := by
        rw [iterate_crcShiftStep_xor, iterate_crcShiftStep_high_byte, iterate_crcShiftStep_low_byte, ← BitVec.xor_assoc,
          BitVec.xor_comm (crcByteStep 0#16 _)]
    _ = crcByteStep c b := by rw [← eq_high_xor_low, ← crcByteStep_eq_xor]

/-- A change of a message of its length that is not lost in the register changes the CRC. -/
theorem crc16_xorBytes_ne {a b : List Byte} (same : a.length = b.length) (ne : crcRaw b ≠ 0#16) :
    crc16 (xorBytes a b) ≠ crc16 a := by
  rw [crc16_xorBytes same]
  intro eq
  exact ne ((BitVec.xor_right_inj _).1 (eq.trans BitVec.xor_zero.symm))

end Sys2Proof.Machine

open Sys2Proof Sys2Proof.Machine

/-- Settles O14: `crcRun_eq` says all a computation does; the two values are evaluated. -/
theorem crcComputationIsAFunctionOfItsBytes : Obligations.CrcComputationIsAFunctionOfItsBytes := fun s bytes =>
  ⟨congrArg Prod.fst (crcRun_eq s bytes), crcRun_writes_creg_only s bytes,
    (crcFinal_foldl_crcByte_crcInit s bytes).symm, crc16_nil, crc16_digits⟩

/-- Settles O16: both forms split the register or the byte by linearity, down to the 256 bytes on an empty register. -/
theorem byteAndTableFormsAgree : Obligations.ByteAndTableFormsAgree :=
  ⟨fun c b => ⟨crcByteXorForm_eq c b, crcByteTableForm_eq c b⟩, crcTable_length, crcTable_getElem?⟩

/-- Settles O18: the CRCs of `b` and `c` together are `RAW` of both, and `RAW` is what a change adds to a CRC. -/
theorem crcIsAffine : Obligations.CrcIsAffine := by
  intro a b c ab bc
  have abc : (xorBytes a b).length = c.length := by rw [xorBytes_length, ab, min_self, bc]
  refine ⟨?_, crc16_xorBytes ab⟩
  rw [crc16_xorBytes abc, crc16_xorBytes ab, BitVec.xor_assoc, BitVec.xor_assoc, crc16_xor_crc16 bc]

/-- Settles O19: `RAW` of one bit is a power of the injective shift step applied to 1. -/
theorem singleBitChangesAreDetected : Obligations.SingleBitChangesAreDetected := by
  intro before j after m hj length
  have ne : crcRaw (oneBitBytes before j after) ≠ 0#16 := by
    rw [crcRaw_oneBitBytes before after hj]
    exact iterate_crcShiftStep_one_ne_zero _
  exact ⟨ne, crc16_xorBytes_ne (length.trans (oneBitBytes_length before j after).symm) ne⟩

/-- Settles O20: bit `k` of the message is power 16 to 63 of the shift step, bit `j` of the CRC power `j` below 16, and
powers below 64 are all different. -/
theorem doubleBitChangesAreDetected : Obligations.DoubleBitChangesAreDetected := by
  intro m length k hk
  obtain ⟨e, he, low, high, rawK⟩ := crcRaw_oneBit_of_six hk
  have lengthK : m.length = (oneBitBytes (k / 8) (k % 8) (5 - k / 8)).length := by
    rw [oneBitBytes_length]
    omega
  refine ⟨fun j hj cancelled => ?_, fun l hl other cancelled => ?_⟩
  · rw [crc16_xorBytes lengthK, BitVec.xor_right_inj, rawK, one_shifted_eq_iterate j hj] at cancelled
    have power := iterate_crcShiftStep_one_inj high (by omega) cancelled
    omega
  · obtain ⟨e', he', -, high', rawL⟩ := crcRaw_oneBit_of_six hl
    have lengthL : (xorBytes m (oneBitBytes (k / 8) (k % 8) (5 - k / 8))).length =
        (oneBitBytes (l / 8) (l % 8) (5 - l / 8)).length := by
      rw [xorBytes_length, ← lengthK, min_self, oneBitBytes_length]
      omega
    rw [crc16_xorBytes lengthL, crc16_xorBytes lengthK, rawK, rawL, BitVec.xor_assoc] at cancelled
    have equal := BitVec.xor_eq_zero_iff.1 ((BitVec.xor_right_inj _).1 (cancelled.trans BitVec.xor_zero.symm))
    have power := iterate_crcShiftStep_one_inj high high' equal
    omega
end

section
/-! The CRC register as a polynomial over the field of two elements (spec/40_crc_generator.md R63): one `CRC.BIT` is
multiplication by `x` with the incoming bit added at `x ^ 16`, up to a multiple of the generator. -/

namespace Sys2Proof.Machine

open Polynomial

/-- `x ^ i` where the bit is 1. -/
noncomputable def bitTerm (b : Bool) (i : Nat) : (ZMod 2)[X] := if b = true then X ^ i else 0

@[simp] theorem bitTerm_false (i : Nat) : bitTerm false i = 0 := rfl

@[simp] theorem bitTerm_true (i : Nat) : bitTerm true i = X ^ i := rfl

/-- Exclusive-OR is addition. -/
theorem bitTerm_xor (a b : Bool) (i : Nat) : bitTerm (a ^^ b) i = bitTerm a i + bitTerm b i := by
  cases a <;> cases b <;> simp [CharTwo.add_self_eq_zero]

theorem X_mul_bitTerm (b : Bool) (i : Nat) : X * bitTerm b i = bitTerm b (i + 1) := by
  cases b <;> simp [pow_succ']

/-- A register value as a polynomial, bit `i` the coefficient of `x ^ i`. -/
noncomputable def registerPoly (c : Half) : (ZMod 2)[X] := ∑ i ∈ Finset.range 16, bitTerm (c.getLsbD i) i

/-- The polynomial `G` of the generator (R63). -/
noncomputable def generatorPoly : (ZMod 2)[X] := X ^ 16 + X ^ 12 + X ^ 5 + 1

/-- A bit sequence as a polynomial, the first bit the highest power (R63). -/
noncomputable def messagePoly : List Bool → (ZMod 2)[X]
  | [] => 0
  | d :: ds => bitTerm d ds.length + messagePoly ds

theorem registerPoly_xor (c c' : Half) : registerPoly (c ^^^ c') = registerPoly c + registerPoly c' := by
  simp only [registerPoly, BitVec.getLsbD_xor, bitTerm_xor, Finset.sum_add_distrib]

theorem registerPoly_shiftLeft (c : Half) :
    registerPoly (c <<< 1) = ∑ i ∈ Finset.range 15, bitTerm (c.getLsbD i) (i + 1) := by
  have moved : ∀ i ∈ Finset.range 15,
      bitTerm ((c <<< 1).getLsbD (i + 1)) (i + 1) = bitTerm (c.getLsbD i) (i + 1) := by
    intro i hi
    have inside : i + 1 < 16 := Nat.succ_lt_succ (Finset.mem_range.1 hi)
    rw [BitVec.getLsbD_shiftLeft, decide_eq_true inside, Nat.add_sub_cancel]
    simp
  rw [registerPoly, Finset.sum_range_succ', Finset.sum_congr rfl moved]
  simp

/-- Shifting the register is multiplication by `x`, less the bit that goes out. -/
theorem X_mul_registerPoly (c : Half) :
    X * registerPoly c = registerPoly (c <<< 1) + bitTerm (c.getLsbD 15) 16 := by
  rw [registerPoly_shiftLeft, registerPoly, Finset.mul_sum, Finset.sum_range_succ]
  simp only [X_mul_bitTerm]

/-- The constant of `CRC.BIT` is `G` without its leading term. -/
theorem registerPoly_crcPoly : registerPoly crcPoly + X ^ 16 = generatorPoly := by
  have taps : registerPoly crcPoly = ∑ i ∈ Finset.range 16, bitTerm (decide (i = 0 ∨ i = 5 ∨ i = 12)) i :=
    Finset.sum_congr rfl fun i hi => by rw [crcPoly_getLsbD (Finset.mem_range.1 hi)]
  rw [taps, generatorPoly]
  simp [Finset.sum_range_succ]
  ring

theorem registerPoly_ones : registerPoly 0xFFFF#16 = ∑ i ∈ Finset.range 16, X ^ i := by
  have ones : ∀ i < 16, (0xFFFF#16).getLsbD i = true := by decide
  exact Finset.sum_congr rfl fun i hi => by rw [ones i (Finset.mem_range.1 hi), bitTerm_true]

/-- One bit step (R59): multiplication by `x`, the bit added at `x ^ 16`, and `G` taken off where the feedback is 1. -/
theorem registerPoly_crcBitStep (c : Half) (d : Bool) :
    X * registerPoly c + bitTerm d 16 =
      registerPoly (crcBitStep c d) + bitTerm (c.getLsbD 15 ^^ d) 0 * generatorPoly := by
  have feedback : bitTerm (c.getLsbD 15) 16 + bitTerm d 16 = bitTerm (c.getLsbD 15 ^^ d) 16 := (bitTerm_xor _ _ 16).symm
  rw [X_mul_registerPoly, add_assoc, feedback, crcBitStep]
  cases c.getLsbD 15 ^^ d
  case false => simp
  case true =>
    have twice : registerPoly crcPoly + registerPoly crcPoly = 0 := CharTwo.add_self_eq_zero _
    simp only [if_true, registerPoly_xor, bitTerm_true, pow_zero, one_mul, ← registerPoly_crcPoly]
    linear_combination -twice

/-- After `n` bits: the initial register times `x ^ n` and the message times `x ^ 16`, up to a multiple of `G`. -/
theorem exists_quotient_foldl_crcBitStep (c : Half) (ds : List Bool) :
    ∃ q, messagePoly ds * X ^ 16 + registerPoly c * X ^ ds.length =
      q * generatorPoly + registerPoly (ds.foldl crcBitStep c) := by
  induction ds generalizing c with
  | nil => exact ⟨0, by simp [messagePoly]⟩
  | cons d ds ih =>
    obtain ⟨q, rest⟩ := ih (crcBitStep c d)
    have first := registerPoly_crcBitStep c d
    have place : bitTerm d ds.length * X ^ 16 = bitTerm d 16 * X ^ ds.length := by cases d <;> simp [mul_comm]
    refine ⟨q + bitTerm (c.getLsbD 15 ^^ d) 0 * X ^ ds.length, ?_⟩
    rw [messagePoly, List.length_cons, List.foldl_cons, pow_succ]
    linear_combination rest + X ^ ds.length * first + place

/-- The message polynomial as a sum over the powers, each with the bit that stands there. -/
theorem messagePoly_eq_sum (ds : List Bool) :
    messagePoly ds = ∑ i ∈ Finset.range ds.length, if ds[ds.length - 1 - i]? = some true then X ^ i else 0 := by
  induction ds with
  | nil => rfl
  | cons d ds ih =>
    have lower : ∀ i ∈ Finset.range ds.length,
        (if (d :: ds)[ds.length - i]? = some true then (X ^ i : (ZMod 2)[X]) else 0) =
          if ds[ds.length - 1 - i]? = some true then X ^ i else 0 := by
      intro i hi
      have := Finset.mem_range.1 hi
      have below : ds.length - i = ds.length - 1 - i + 1 := by omega
      rw [below, List.getElem?_cons_succ]
    rw [messagePoly, ih, List.length_cons, Finset.sum_range_succ, Nat.add_sub_cancel, Finset.sum_congr rfl lower,
      Nat.sub_self, List.getElem?_cons_zero, add_comm]
    simp [bitTerm]

theorem messageBits_length (bytes : List Byte) : (messageBits bytes).length = 8 * bytes.length := by
  simp [messageBits, List.length_flatMap, mul_comm]

/-- The register after the bytes is the register after their bits in the order of R63. -/
theorem crcRegister_eq_foldl_messageBits (c : Half) (bytes : List Byte) :
    crcRegister c bytes = (messageBits bytes).foldl crcBitStep c := by
  rw [messageBits, List.foldl_flatMap]
  rfl

end Sys2Proof.Machine

open Sys2Proof Sys2Proof.Machine

/-- Settles O17: `exists_quotient_foldl_crcBitStep` for the bits of the message, from the register of sixteen ones. -/
theorem registerIsThePolynomialRemainder : Obligations.RegisterIsThePolynomialRemainder := by
  intro bytes
  obtain ⟨q, remainder⟩ := exists_quotient_foldl_crcBitStep 0xFFFF#16 (messageBits bytes)
  rw [messagePoly_eq_sum, messageBits_length, registerPoly_ones, ← crcRegister_eq_foldl_messageBits] at remainder
  exact ⟨crc16_eq bytes, q, remainder⟩
end

section
/-! What `FILL` packs and `PARSE` gives back, locally and across the wire (spec/42_frame_decoder.md R80). -/

namespace Sys2Proof.Machine

/-- Unpacking under another mask masks the register field and nothing else (R77). -/
theorem unpack_ctrl16_mask (x : Fields) (mask : BitVec 12) :
    unpack (ctrl16 x) x.data mask = { x with reg := x.reg &&& mask } := by
  have full : regMask = BitVec.allOnes 12 := rfl
  have masked : unpack (ctrl16 x) x.data mask =
      { unpack (ctrl16 x) x.data regMask with reg := (unpack (ctrl16 x) x.data regMask).reg &&& mask } := by
    simp only [unpack, full, BitVec.and_allOnes]
  rw [masked, unpack_ctrl16]

/-- `RANK` in the form the statements of R80 have it. -/
theorem rankField_eq_ofNat (r : Nat) : rankField r = BitVec.ofNat 2 r := by
  apply BitVec.eq_of_toNat_eq
  rw [rankField_toNat, BitVec.toNat_ofNat]

theorem regField_eq_ofNat (g : Nat) : regField g = BitVec.ofNat 12 g := by
  apply BitVec.eq_of_toNat_eq
  rw [regField_toNat, BitVec.toNat_ofNat]

theorem dataField_eq_ofNat (d : Nat) : dataField d = BitVec.ofNat 16 d := by
  apply BitVec.eq_of_toNat_eq
  rw [dataField_toNat, BitVec.toNat_ofNat]

theorem assemble_acc_eq_decide (w : Bool) (r g d : Nat) : (assemble w r g d).acc = decide (d % 65536 ≠ 0) :=
  Bool.eq_iff_iff.2 ((assemble_acc_eq_true_iff w r g d).trans decide_eq_true_iff.symm)

/-- The register field under Variant A's read-back mask (R78). -/
theorem regField_readbackMaskA (c : Config) (g : Nat) :
    regField g &&& readbackMaskA c = BitVec.ofNat 12 (if c.regReadbackFix then g else g % 4) := by
  cases fix : c.regReadbackFix
  case true =>
    have mask : readbackMaskA c = BitVec.allOnes 12 := if_pos fix
    rw [mask, BitVec.and_allOnes, regField_eq_ofNat, if_pos rfl]
  case false =>
    have mask : readbackMaskA c = rankMask := if_neg (by rw [fix]; decide)
    have three : rankMask.toNat = 2 ^ 2 - 1 := rfl
    apply BitVec.eq_of_toNat_eq
    rw [mask, BitVec.toNat_and, regField_toNat, three, Nat.and_two_pow_sub_one_eq_mod, BitVec.toNat_ofNat,
      if_neg Bool.false_ne_true]
    omega

/-- The response that gives assembled operands back, the register field as `reg`. -/
theorem ofFields_assemble (w : Bool) (r g d : Nat) (reg : BitVec 12) :
    Response.ofFields { assemble w r g d with reg := reg } =
      ⟨.ok, 0#64, decide (d % 65536 ≠ 0), w, BitVec.ofNat 2 r, reg, BitVec.ofNat 16 d⟩ := by
  rw [← assemble_acc_eq_decide w r g d, ← rankField_eq_ofNat, ← dataField_eq_ofNat]
  rfl

section Parse

variable {w : Bool} {r g d : Nat} {s : State} (valid : s.valid = true)
include valid

/-- `PARSE.A` of the payload `FILL.A` packed (R78, R80). -/
theorem exec_parseA_of_filled
    (pay : s.f.pay = (ctrl16 (assemble w r g d) ++ (assemble w r g d).data : BitVec 32)) :
    ∃ u, exec .parseA s = .next u ∧ u.rsps.head? = some ⟨.ok, 0#64, decide (d % 65536 ≠ 0), w, BitVec.ofNat 2 r,
      BitVec.ofNat 12 (if s.cfg.regReadbackFix then g else g % 4), BitVec.ofNat 16 d⟩ := by
  have parsed : parsedA s = { assemble w r g d with reg := regField g &&& readbackMaskA s.cfg } := by
    rw [parsedA, pay, extract_append_upper_half, extract_append_lower_half, unpack_ctrl16_mask]
    rfl
  refine ⟨_, exec_parseA_valid valid, ?_⟩
  rw [State.answer_rsps, List.head?_cons, parsed, ofFields_assemble, regField_readbackMaskA]

/-- `PARSE.B` of the segments `FILL.B` packed (R79, R80). -/
theorem exec_parseB_of_filled
    (pay : s.f.pay = ((assemble w r g d).data ++ ctrl16 (assemble w r g d) : BitVec 32)) :
    ∃ u, exec .parseB s = .next u ∧ u.rsps.head? =
      some ⟨.ok, 0#64, decide (d % 65536 ≠ 0), w, BitVec.ofNat 2 r, BitVec.ofNat 12 g, BitVec.ofNat 16 d⟩ := by
  have joined := (s.f.pay_eq).symm.trans pay
  have seg0 : s.f.seg0 = ctrl16 (assemble w r g d) := by
    rw [← extract_append_lower_half s.f.seg1 s.f.seg0, joined, extract_append_lower_half]
  have seg1 : s.f.seg1 = (assemble w r g d).data := by
    rw [← extract_append_upper_half s.f.seg1 s.f.seg0, joined, extract_append_upper_half]
  refine ⟨_, exec_parseB_valid valid, ?_⟩
  rw [State.answer_rsps, List.head?_cons, seg0, seg1, unpack_ctrl16, ← regField_eq_ofNat, ← ofFields_assemble w r g d]
  rfl

end Parse

/-- The CRC of a frame depends on nothing of the instance but `CRC_COVER` (R57). -/
theorem frameCrcOf_congr_cover {c c' : Config} (cover : c.crcCover = c'.crcCover) (f : FrameBuf) :
    frameCrcOf c f = frameCrcOf c' f := by
  rw [frameCrcOf, frameCrcOf, coveredBytes, coveredBytes, cover]

/-- A sealed frame read out here and loaded on an instance with the same `CRC_COVER` is there, valid (R73, R76, R80). -/
theorem sealed_frame_travels {s s' : State} (cover : s'.cfg.crcCover = s.cfg.crcCover) (f : FrameBuf) :
    ∃ v x y, exec .rdraw (s.sealedWith f) = .next v ∧ v.rsps.head? = some x ∧ exec (.ldraw 8 x.raw) s' = .next y ∧
      y.f.pay = f.pay ∧ y.valid = true ∧ y.cfg = s'.cfg := by
  have matching : RawMatches s'.cfg (s.sealedWith f).f.frame64 := by
    rw [rawMatches_iff, FrameBuf.ofRaw_frame64, frameCrcOf_congr_cover cover, State.sealedWith_f]
    exact (stampedBuf_crcf s.cfg f).symm
  obtain ⟨y, load, frame, valid, -, cfg, -⟩ := loadBuffer_of_rawMatches matching
  refine ⟨_, _, y, exec_rdraw_valid (s.sealedWith_valid f), rfl, load, ?_, valid, cfg⟩
  rw [frame, FrameBuf.ofRaw_frame64, State.sealedWith_f, stampedBuf_pay]

end Sys2Proof.Machine

open Sys2Proof Sys2Proof.Machine

/-- Settles O45: the sealed frame holds the packed payload, here and where it travelled, and `PARSE` of the same layout
unpacks it. -/
theorem fillThenParseGivesTheFieldsBack : Obligations.FillThenParseGivesTheFieldsBack := by
  intro w r g d s s' cover
  constructor
  · obtain ⟨u, parse, here⟩ := exec_parseA_of_filled (w := w) (r := r) (g := g) (d := d)
      (s := s.sealedWith (filledA (assemble w r g d) s.f)) rfl (by simp)
    obtain ⟨v, x, y, read, head, load, pay, valid, cfg⟩ := sealed_frame_travels cover (filledA (assemble w r g d) s.f)
    obtain ⟨z, parse', there⟩ := exec_parseA_of_filled valid (pay.trans (filledA_pay _ _))
    rw [State.sealedWith_cfg] at here
    rw [cfg] at there
    exact ⟨_, u, exec_fillA_eq_sealedWith w r g d s, parse, here, v, x, y, z, read, head, load, parse', there⟩
  · obtain ⟨u, parse, here⟩ := exec_parseB_of_filled (w := w) (r := r) (g := g) (d := d)
      (s := s.sealedWith (filledB (assemble w r g d) s.f)) rfl (by simp)
    obtain ⟨v, x, y, read, head, load, pay, valid, -⟩ := sealed_frame_travels cover (filledB (assemble w r g d) s.f)
    obtain ⟨z, parse', there⟩ := exec_parseB_of_filled valid (pay.trans (filledB_pay _ _))
    exact ⟨_, u, exec_fillB_eq_sealedWith w r g d s, parse, here, v, x, y, z, read, head, load, parse', there⟩
end

section
/-! One flipped bit of a received buffer (spec/42_frame_decoder.md R81): where it stands decides whether it changes the
covered bytes, the trailer, or neither. -/

namespace Sys2Proof.Machine

theorem rawByte_xor (a b : Raw) (i : Nat) : rawByte (a ^^^ b) i = rawByte a i ^^^ rawByte b i := by
  apply BitVec.eq_of_getLsbD_eq
  intro j hj
  simp [rawByte, hj]

/-- Bit `k` of the port stands in byte lane `k / 8`. -/
theorem rawByte_one_shifted :
    ∀ k < 64, ∀ i < 8, rawByte (1#64 <<< k) i = if i = k / 8 then 1#8 <<< (k % 8) else 0#8 := by decide +kernel

/-- A one-bit sequence byte by byte. -/
theorem oneBitBytes_getElem (before j after i : Nat) (hi : i < (oneBitBytes before j after).length) :
    (oneBitBytes before j after)[i] = if i = before then 1#8 <<< j else 0#8 := by
  simp only [oneBitBytes, List.getElem_append, List.length_replicate]
  split_ifs with below same same
  · omega
  · exact List.getElem_replicate _
  · simp [same]
  · rw [List.getElem_cons, dif_neg (by omega), List.getElem_replicate]

section Flipped

variable (raw : Raw) {k n : Nat}

/-- A bit within the first `n` bytes flips that bit of the message they are. -/
theorem covered_of_flipped_inside (hn : n ≤ 8) (inside : k < 8 * n) :
    (List.range n).map (rawByte (raw ^^^ 1#64 <<< k)) =
      xorBytes ((List.range n).map (rawByte raw)) (oneBitBytes (k / 8) (k % 8) (n - 1 - k / 8)) := by
  apply List.ext_getElem
  · rw [xorBytes_length, oneBitBytes_length, List.length_map, List.length_map, List.length_range]
    omega
  · intro i hi _
    rw [List.length_map, List.length_range] at hi
    simp only [xorBytes, List.getElem_zipWith, List.getElem_map, List.getElem_range, oneBitBytes_getElem, rawByte_xor]
    rw [rawByte_one_shifted k (by omega) i (by omega)]

/-- A bit above the first `n` bytes leaves them. -/
theorem covered_of_flipped_outside (hk : k < 64) (outside : 8 * n ≤ k) :
    (List.range n).map (rawByte (raw ^^^ 1#64 <<< k)) = (List.range n).map (rawByte raw) := by
  apply List.map_congr_left
  intro i hi
  have below := List.mem_range.1 hi
  rw [rawByte_xor, rawByte_one_shifted k hk i (by omega), if_neg (by omega), BitVec.xor_zero]

theorem trailer_xor (a b : Raw) :
    (rawByte (a ^^^ b) 7 ++ rawByte (a ^^^ b) 6 : BitVec 16) =
      (rawByte a 7 ++ rawByte a 6) ^^^ (rawByte b 7 ++ rawByte b 6) := by
  rw [rawByte_xor, rawByte_xor, BitVec.xor_append]

/-- A bit below byte 6 leaves the trailer. -/
theorem trailer_of_flipped_below (below : k < 48) :
    (rawByte (raw ^^^ 1#64 <<< k) 7 ++ rawByte (raw ^^^ 1#64 <<< k) 6 : BitVec 16) =
      rawByte raw 7 ++ rawByte raw 6 := by
  rw [rawByte_xor, rawByte_xor, rawByte_one_shifted k (by omega) 7 (by decide),
    rawByte_one_shifted k (by omega) 6 (by decide), if_neg (by omega), if_neg (by omega), BitVec.xor_zero,
    BitVec.xor_zero]

theorem trailer_one_shifted_ne_zero :
    ∀ k < 64, 48 ≤ k → (rawByte (1#64 <<< k) 7 ++ rawByte (1#64 <<< k) 6 : BitVec 16) ≠ 0#16 := by decide +kernel

/-- A bit of byte 6 or 7 changes the trailer. -/
theorem trailer_of_flipped_inside (hk : k < 64) (inside : 48 ≤ k) :
    (rawByte (raw ^^^ 1#64 <<< k) 7 ++ rawByte (raw ^^^ 1#64 <<< k) 6 : BitVec 16) ≠
      rawByte raw 7 ++ rawByte raw 6 := by
  rw [trailer_xor]
  intro same
  exact trailer_one_shifted_ne_zero k hk inside ((BitVec.xor_right_inj _).1 (same.trans BitVec.xor_zero.symm))

end Flipped

theorem crcCover_bytes_le (cover : CrcCover) : cover.bytes ≤ 6 := by cases cover <;> decide

section Caught

variable {c : Config} {raw : Raw} {k : Nat} (matching : RawMatches c raw)
include matching

/-- A flipped covered bit changes the CRC and not the trailer. -/
theorem not_rawMatches_of_covered_bit (covered : k < 8 * c.crcCover.bytes) :
    ¬ RawMatches c (raw ^^^ 1#64 <<< k) := by
  have le := crcCover_bytes_le c.crcCover
  have length : ((List.range c.crcCover.bytes).map (rawByte raw)).length =
      k / 8 + 1 + (c.crcCover.bytes - 1 - k / 8) := by
    rw [List.length_map, List.length_range]
    omega
  obtain ⟨-, changed⟩ := singleBitChangesAreDetected _ (k % 8) _ _ (by omega) length
  rw [RawMatches, covered_of_flipped_inside raw (by omega) covered, trailer_of_flipped_below raw (by omega), ← matching]
  exact changed

/-- A flipped trailer bit changes the trailer and not the CRC. -/
theorem not_rawMatches_of_trailer_bit (hk : k < 64) (trailer : 48 ≤ k) : ¬ RawMatches c (raw ^^^ 1#64 <<< k) := by
  have le := crcCover_bytes_le c.crcCover
  rw [RawMatches, covered_of_flipped_outside raw hk (by omega), matching]
  exact (trailer_of_flipped_inside raw hk trailer).symm

/-- A bit that is neither covered nor in the trailer is not seen. -/
theorem rawMatches_of_uncovered_bit (uncovered : 8 * c.crcCover.bytes ≤ k) (below : k < 48) :
    RawMatches c (raw ^^^ 1#64 <<< k) := by
  have le := crcCover_bytes_le c.crcCover
  rw [RawMatches, covered_of_flipped_outside raw (by omega) uncovered, trailer_of_flipped_below raw below]
  exact matching

end Caught

end Sys2Proof.Machine

open Sys2Proof Sys2Proof.Machine

/-- Settles O46: a covered bit and a trailer bit are caught, whatever the cover; byte 5 is covered but with
`CRC_COVER = 5`. -/
theorem oneFlippedBitIsCaught : Obligations.OneFlippedBitIsCaught := by
  intro raw k s hk matching
  have six (cover : s.cfg.crcCover = .six) : s.cfg.crcCover.bytes = 6 := by rw [cover]; rfl
  have five (cover : s.cfg.crcCover = .five) : s.cfg.crcCover.bytes = 5 := by rw [cover]; rfl
  by_cases caught : k < 8 * s.cfg.crcCover.bytes ∨ 48 ≤ k
  · have differing : ¬ RawMatches s.cfg (raw ^^^ 1#64 <<< k) :=
      caught.elim (not_rawMatches_of_covered_bit matching) (not_rawMatches_of_trailer_bit matching hk)
    obtain ⟨t, run, rsps, -⟩ := loadBuffer_of_not_rawMatches differing
    refine ⟨t, run, fun _ => rsps, fun _ _ => rsps, fun cover low high => ?_⟩
    rw [five cover] at caught
    omega
  · obtain ⟨uncovered, below⟩ := not_or.1 caught
    obtain ⟨t, run, -, valid, rsps, -⟩ :=
      loadBuffer_of_rawMatches (rawMatches_of_uncovered_bit matching (Nat.not_lt.1 uncovered) (Nat.not_le.1 below))
    refine ⟨t, run, fun cover => ?_, fun cover outside => ?_, fun _ _ _ => ⟨rsps, valid⟩⟩
    · rw [six cover] at uncovered
      omega
    · rw [five cover] at uncovered
      omega
end
